-- ==== Sys2Proof/Word.lean ====
section
/-! DEFINITION. The word types of the block (00_scope.md R5, R6): every integer is unsigned. -/

namespace Sys2Proof

/-- `u8`: a data byte, the shared bus, a wire symbol (`DATA_W` = 8). -/
abbrev Byte := BitVec 8

/-- `u16`: an address, `cursor`, `start_address` (`ADDR_W` = 16). -/
abbrev Addr := BitVec 16

/-- The level of one pin: 0 or 1 (30_encoding.md R105). -/
abbrev Level := BitVec 1

/-- A sampled time, `TIME_W` = 64 bits of `TIME_UNIT`s (10_state.md R26, R32). -/
abbrev Time := BitVec 64

end Sys2Proof
end

