-- ==== Sys2Proof/Syntax.lean ====
section
/-! DEFINITION. The 28 rows of spec/opcode_table.json as syntax, and the names their keys are made of. -/

namespace Sys2Proof

/-- `cp`, the control point: where the one control loop stands (10_state.md R21). -/
inductive ControlPoint where
  | idleWait   -- CP_IDLE_WAIT, a wait point
  | ackTx      -- CP_ACK_TX
  | hdrWait    -- CP_HDR_WAIT, a wait point
  | beginRun   -- CP_BEGIN
  | strWait    -- CP_STR_WAIT, a wait point
  | write      -- CP_WRITE
  | confirmTx  -- CP_CONFIRM_TX
  | endRun     -- CP_END
  | report     -- CP_REPORT
deriving DecidableEq, Repr

/-- `wphase`: the phase of the `write_byte` in flight (40_bus_sequencer.md R127). -/
inductive WPhase where
  | ahPut | ahAssert | ahHold | ahRelease
  | alPut | alAssert | alHold | alRelease
  | dPut | dAssert | dHold | dRelease
  | weLow | weHold | weHigh
  | wIdle
deriving DecidableEq, Repr

/-- `sphase`: the phase of the session-controller operation in flight (41_session_controller.md R159). -/
inductive SPhase where
  | bReset | bSettle | bCs | bLoe
  | eLoe | eCs | eReset | eSettle
  | sIdle
deriving DecidableEq, Repr

/-- An input event of the receive channel (00_scope.md R11). -/
inductive Event where
  | byte (b : Byte)
  | timeout
  | closed
deriving DecidableEq, Repr

/-- One constructor per row of the opcode table. `b` is `ev[7:0]`; `p` is the row's phase bits, `pppp` of a
write or `pp` within one operation (30_encoding.md R107). Bits a row does not look at are no operands. -/
inductive Instr where
  | idleStart                    -- IDLE.START     R172
  | idleSkip (b : Byte)          -- IDLE.SKIP      R173
  | idleTmo                      -- IDLE.TMO       R174
  | idleClosed                   -- IDLE.CLOSED    R175
  | hdrLo (b : Byte)             -- HDR.LO         R177
  | hdrHi (b : Byte)             -- HDR.HI         R178
  | hdrTmo                       -- HDR.TMO        R179
  | hdrClosed                    -- HDR.CLOSED     R180
  | strTmo                       -- STR.TMO        R183
  | strEnd                       -- STR.END        R184
  | strClosed                    -- STR.CLOSED     R185
  | strData (b : Byte)           -- STR.DATA       R186
  | ack                          -- ACK            R176
  | sessionBegin (p : BitVec 2)  -- SESSION.BEGIN  R181
  | beginSession (p : BitVec 2)  -- BEGIN_SESSION  R151
  | wrStep (p : BitVec 4)        -- WR.STEP        R190
  | writeByte (p : BitVec 4)     -- WRITE_BYTE     R126
  | latchAh (p : BitVec 2)       -- LATCH_AH       R122
  | latchAl (p : BitVec 2)       -- LATCH_AL       R123
  | latchD (p : BitVec 2)        -- LATCH_D        R124
  | wePulse (p : BitVec 2)       -- WE_PULSE       R125
  | wrOk                         -- WR.OK          R187
  | wrErr                        -- WR.ERR         R188
  | confirm                      -- CONFIRM        R189
  | finEnd (p : BitVec 2)        -- FIN.END        R191, R192
  | endSession (p : BitVec 2)    -- END_SESSION    R152
  | finReport                    -- FIN.REPORT     R193
  | hUpload (start : Addr) (image : List Byte)  -- H.UPLOAD  R221
deriving DecidableEq, Repr

end Sys2Proof
end

