-- ==== Sys2Proof/WellFormed.lean ====
section
/-! DEFINITION. Which terms of `Instr` stand for a row's own words. -/

namespace Sys2Proof

/-- The exclusions the table and the rules give: `IDLE.SKIP` is not the start marker (R173), `STR.DATA` is not the
end marker (R186), no write is at phase 15, `W_IDLE` (R190, R126), and the strobe has three phases (R125). -/
def Instr.wellFormed : Instr → Bool
  | .idleSkip b => b != 0x55
  | .strData b => b != 0x45
  | .wrStep p => p != 15
  | .writeByte p => p != 15
  | .wePulse p => p != 3
  | .idleStart | .idleTmo | .idleClosed => true
  | .hdrLo _ | .hdrHi _ | .hdrTmo | .hdrClosed => true
  | .strTmo | .strEnd | .strClosed => true
  | .ack | .sessionBegin _ | .beginSession _ => true
  | .latchAh _ | .latchAl _ | .latchD _ => true
  | .wrOk | .wrErr | .confirm => true
  | .finEnd _ | .endSession _ | .finReport => true
  | .hUpload _ _ => true

end Sys2Proof
end

