-- ==== Sys2Proof/Decode.lean ====
section
/-! DEFINITION. Codes, words, the decoder and the encoder (30_encoding.md). -/

namespace Sys2Proof

/-! ### Numeric codes (30_encoding.md R103) -/

/-- The code of a control point (10_state.md R21). -/
def ControlPoint.code : ControlPoint → BitVec 4
  | .idleWait => 0 | .ackTx => 1 | .hdrWait => 2 | .beginRun => 3 | .strWait => 4
  | .write => 5 | .confirmTx => 6 | .endRun => 7 | .report => 8

/-- The control point of a code; 9 to 15 are never taken (10_state.md R21). -/
def ControlPoint.ofCode (c : BitVec 4) : Option ControlPoint :=
  match c.toNat with
  | 0 => some .idleWait | 1 => some .ackTx | 2 => some .hdrWait | 3 => some .beginRun | 4 => some .strWait
  | 5 => some .write | 6 => some .confirmTx | 7 => some .endRun | 8 => some .report
  | _ => none

/-- The three control points that take an input event (00_scope.md R14). -/
def ControlPoint.isWait : ControlPoint → Bool
  | .idleWait | .hdrWait | .strWait => true
  | _ => false

/-- The number of a write phase (40_bus_sequencer.md R127). -/
def WPhase.code : WPhase → BitVec 4
  | .ahPut => 0 | .ahAssert => 1 | .ahHold => 2 | .ahRelease => 3
  | .alPut => 4 | .alAssert => 5 | .alHold => 6 | .alRelease => 7
  | .dPut => 8 | .dAssert => 9 | .dHold => 10 | .dRelease => 11
  | .weLow => 12 | .weHold => 13 | .weHigh => 14 | .wIdle => 15

/-- The write phase of a number (40_bus_sequencer.md R127). -/
def WPhase.ofCode (c : BitVec 4) : WPhase :=
  match c.toNat with
  | 0 => .ahPut | 1 => .ahAssert | 2 => .ahHold | 3 => .ahRelease
  | 4 => .alPut | 5 => .alAssert | 6 => .alHold | 7 => .alRelease
  | 8 => .dPut | 9 => .dAssert | 10 => .dHold | 11 => .dRelease
  | 12 => .weLow | 13 => .weHold | 14 => .weHigh
  | _ => .wIdle

/-- The number of a session phase (41_session_controller.md R159). -/
def SPhase.code : SPhase → BitVec 4
  | .bReset => 0 | .bSettle => 1 | .bCs => 2 | .bLoe => 3
  | .eLoe => 4 | .eCs => 5 | .eReset => 6 | .eSettle => 7 | .sIdle => 8

/-- The session phase of a number; 9 to 15 never occur (41_session_controller.md R159, 93_implementation_defined.md
U13). -/
def SPhase.ofCode (c : BitVec 4) : SPhase :=
  match c.toNat with
  | 0 => .bReset | 1 => .bSettle | 2 => .bCs | 3 => .bLoe
  | 4 => .eLoe | 5 => .eCs | 6 => .eReset | 7 => .eSettle
  | _ => .sIdle

/-- Phase `pp` of `BEGIN_SESSION` (41_session_controller.md R159). -/
def SPhase.ofBegin (pp : BitVec 2) : SPhase :=
  match pp.toNat with
  | 0 => .bReset | 1 => .bSettle | 2 => .bCs | _ => .bLoe

/-- Phase `4 + pp` of the table, the phases of `END_SESSION` (41_session_controller.md R159). -/
def SPhase.ofEnd (pp : BitVec 2) : SPhase :=
  match pp.toNat with
  | 0 => .eLoe | 1 => .eCs | 2 => .eReset | _ => .eSettle

/-! ### Wire symbols and words -/

/-- `START_MARKER`, `'U'` (30_encoding.md R92). -/
def startMarker : Byte := 0x55
/-- `END_MARKER`, `'E'` (30_encoding.md R92). -/
def endMarker : Byte := 0x45
/-- `ACK_BYTE`, `'A'` (30_encoding.md R95). -/
def ackByte : Byte := 0x41
/-- `CONFIRM_BYTE`, `'K'` (30_encoding.md R95). -/
def confirmByte : Byte := 0x4B

/-- `ev[9:8]` (30_encoding.md R97). -/
def eventKind (ev : BitVec 10) : BitVec 2 := ev.extractLsb' 8 2
/-- `ev[7:0]` (30_encoding.md R97). -/
def eventData (ev : BitVec 10) : Byte := ev.extractLsb' 0 8

/-- The 10-bit event word of an input event (30_encoding.md R97). -/
def eventWord : Event → BitVec 10
  | .byte b => (0 : BitVec 2) ++ b
  | .timeout => 0x100
  | .closed => 0x200

/-- `CW[8:0] = {cp, phase, bus_fault}` (30_encoding.md R107). -/
def packControl (cp phase : BitVec 4) (fault : BitVec 1) : BitVec 9 := cp ++ phase ++ fault

/-- `CW[8:5]` (30_encoding.md R107). -/
def controlCp (cw : BitVec 9) : BitVec 4 := cw.extractLsb' 5 4
/-- `CW[4:1]` (30_encoding.md R107). -/
def controlPhase (cw : BitVec 9) : BitVec 4 := cw.extractLsb' 1 4
/-- `CW[0]` (30_encoding.md R107). -/
def controlFault (cw : BitVec 9) : BitVec 1 := cw.extractLsb' 0 1

/-- Which rows a control word is read against. The operations have rows of their own beside the loop steps that
run them, with the same pattern (30_encoding.md R107), so the word alone does not tell them apart (log 12). -/
inductive RowGroup where
  | loop   -- the steps of the control loop
  | call   -- WRITE_BYTE, BEGIN_SESSION, END_SESSION: the contracts
  | part   -- LATCH_AH, LATCH_AL, LATCH_D, WE_PULSE: the four parts of a write
  | ret    -- WR.OK, WR.ERR: what a write returns to
deriving DecidableEq, Repr

/-- What the decoder reads: the key of an event row, a control word, or a host's byte stream. -/
inductive CodeWord where
  | event (cp : ControlPoint) (hdrCnt : BitVec 1) (ev : BitVec 10)
  | control (group : RowGroup) (cw : BitVec 9)
  | host (stream : List Byte)
deriving DecidableEq, Repr

/-- Why a word stands for no instruction. -/
inductive DecodeError where
  | notAWaitPoint   -- an event at a control point that takes none (R96)
  | noEvent         -- event word of kind 3, never produced (R97)
  | noRow           -- a control word that no row of the group fits (R107)
  | notAnUpload     -- a byte stream that is not `55 lo hi ... 45` (R107)
deriving DecidableEq, Repr

/-! ### The decoder -/

/-- The rows of `CP_IDLE_WAIT`, from the top (30_encoding.md R98). -/
def decodeIdle (ev : BitVec 10) : Except DecodeError Instr :=
  if eventKind ev = 0 then
    if eventData ev = startMarker then .ok .idleStart else .ok (.idleSkip (eventData ev))
  else if eventKind ev = 1 then .ok .idleTmo
  else if eventKind ev = 2 then .ok .idleClosed
  else .error .noEvent

/-- The rows of `CP_HDR_WAIT` (30_encoding.md R98). -/
def decodeHdr (hdrCnt : BitVec 1) (ev : BitVec 10) : Except DecodeError Instr :=
  if eventKind ev = 0 then
    if hdrCnt = 0 then .ok (.hdrLo (eventData ev)) else .ok (.hdrHi (eventData ev))
  else if eventKind ev = 1 then .ok .hdrTmo
  else if eventKind ev = 2 then .ok .hdrClosed
  else .error .noEvent

/-- The rows of `CP_STR_WAIT`: 0x45 is tested before "any other byte" (30_encoding.md R98). -/
def decodeStr (ev : BitVec 10) : Except DecodeError Instr :=
  if eventKind ev = 1 then .ok .strTmo
  else if eventKind ev = 0 then
    if eventData ev = endMarker then .ok .strEnd else .ok (.strData (eventData ev))
  else if eventKind ev = 2 then .ok .strClosed
  else .error .noEvent

/-- The complete decode table, key `(cp, hdr_cnt, ev)` (30_encoding.md R98). -/
def decodeEvent (cp : ControlPoint) (hdrCnt : BitVec 1) (ev : BitVec 10) : Except DecodeError Instr :=
  match cp with
  | .idleWait => decodeIdle ev
  | .hdrWait => decodeHdr hdrCnt ev
  | .strWait => decodeStr ev
  | .ackTx | .beginRun | .write | .confirmTx | .endRun | .report => .error .notAWaitPoint

/-- The loop steps, selected by control point and phase (30_encoding.md R106, R107). -/
def decodeLoop (cp : ControlPoint) (phase : BitVec 4) : Except DecodeError Instr :=
  match cp with
  | .ackTx => .ok .ack
  | .beginRun => if phase.extractLsb' 2 2 = 0 then .ok (.sessionBegin (phase.extractLsb' 0 2)) else .error .noRow
  | .write => if phase = 15 then .error .noRow else .ok (.wrStep phase)
  | .confirmTx => .ok .confirm
  | .endRun => if phase.extractLsb' 2 2 = 1 then .ok (.finEnd (phase.extractLsb' 0 2)) else .error .noRow
  | .report => .ok .finReport
  | .idleWait | .hdrWait | .strWait => .error .noRow

/-- The three contracts (30_encoding.md R107). -/
def decodeCall (cp : ControlPoint) (phase : BitVec 4) : Except DecodeError Instr :=
  match cp with
  | .beginRun => if phase.extractLsb' 2 2 = 0 then .ok (.beginSession (phase.extractLsb' 0 2)) else .error .noRow
  | .write => if phase = 15 then .error .noRow else .ok (.writeByte phase)
  | .endRun => if phase.extractLsb' 2 2 = 1 then .ok (.endSession (phase.extractLsb' 0 2)) else .error .noRow
  | .idleWait | .ackTx | .hdrWait | .strWait | .confirmTx | .report => .error .noRow

/-- The four parts of a write (30_encoding.md R107): `pp` is `phase[1:0]`. -/
def decodePart (cp : ControlPoint) (phase : BitVec 4) : Except DecodeError Instr :=
  match cp with
  | .write =>
    if phase.extractLsb' 2 2 = 0 then .ok (.latchAh (phase.extractLsb' 0 2))
    else if phase.extractLsb' 2 2 = 1 then .ok (.latchAl (phase.extractLsb' 0 2))
    else if phase.extractLsb' 2 2 = 2 then .ok (.latchD (phase.extractLsb' 0 2))
    else if phase = 15 then .error .noRow
    else .ok (.wePulse (phase.extractLsb' 0 2))
  | .idleWait | .ackTx | .hdrWait | .beginRun | .strWait | .confirmTx | .endRun | .report => .error .noRow

/-- The two returns of a write, told apart by the fault input (30_encoding.md R107). -/
def decodeRet (cp : ControlPoint) (phase : BitVec 4) (fault : BitVec 1) : Except DecodeError Instr :=
  match cp with
  | .write => if phase = 14 then (if fault = 0 then .ok .wrOk else .ok .wrErr) else .error .noRow
  | .idleWait | .ackTx | .hdrWait | .beginRun | .strWait | .confirmTx | .endRun | .report => .error .noRow

/-- A control word read against one group of rows (30_encoding.md R107). -/
def decodeControl (g : RowGroup) (cw : BitVec 9) : Except DecodeError Instr :=
  match ControlPoint.ofCode (controlCp cw) with
  | none => .error .noRow
  | some cp =>
    match g with
    | .loop => decodeLoop cp (controlPhase cw)
    | .call => decodeCall cp (controlPhase cw)
    | .part => decodePart cp (controlPhase cw)
    | .ret => decodeRet cp (controlPhase cw) (controlFault cw)

/-- `{hi, lo}`: the header is little-endian, not scaled, not shifted (30_encoding.md R93). -/
def headerAddress (hi lo : Byte) : Addr := hi ++ lo

/-- A whole host stream `55 lo hi image 45` (43_host_uploader.md R221, 30_encoding.md R107). -/
def decodeHost : List Byte → Except DecodeError Instr
  | u :: lo :: hi :: rest =>
    if u = startMarker ∧ rest.getLast? = some endMarker then .ok (.hUpload (headerAddress hi lo) rest.dropLast)
    else .error .notAnUpload
  | _ => .error .notAnUpload

/-- The decoder, total: an instruction, or the reason there is none. -/
def decode : CodeWord → Except DecodeError Instr
  | .event cp hdrCnt ev => decodeEvent cp hdrCnt ev
  | .control g cw => decodeControl g cw
  | .host stream => decodeHost stream

/-! ### The encoder -/

/-- `CP_BEGIN`, phase `00pp`: `001100ppf` with the unread `f` 0 (30_encoding.md R107). -/
def beginWord (pp : BitVec 2) : BitVec 9 := packControl (ControlPoint.code .beginRun) ((0 : BitVec 2) ++ pp) 0
/-- `CP_END`, phase `01pp`: `011101ppf` with the unread `f` 0 (30_encoding.md R107). -/
def endWord (pp : BitVec 2) : BitVec 9 := packControl (ControlPoint.code .endRun) ((1 : BitVec 2) ++ pp) 0
/-- `CP_WRITE` at a phase: `0101ppppf` (30_encoding.md R107). -/
def writeWord (phase : BitVec 4) (f : BitVec 1) : BitVec 9 := packControl (ControlPoint.code .write) phase f

/-- The word of an instruction; bits its row does not look at are 0 (log 12). -/
def encode : Instr → CodeWord
  | .idleStart => .event .idleWait 0 (eventWord (.byte startMarker))
  | .idleSkip b => .event .idleWait 0 (eventWord (.byte b))
  | .idleTmo => .event .idleWait 0 (eventWord .timeout)
  | .idleClosed => .event .idleWait 0 (eventWord .closed)
  | .hdrLo b => .event .hdrWait 0 (eventWord (.byte b))
  | .hdrHi b => .event .hdrWait 1 (eventWord (.byte b))
  | .hdrTmo => .event .hdrWait 0 (eventWord .timeout)
  | .hdrClosed => .event .hdrWait 0 (eventWord .closed)
  | .strTmo => .event .strWait 0 (eventWord .timeout)
  | .strEnd => .event .strWait 0 (eventWord (.byte endMarker))
  | .strClosed => .event .strWait 0 (eventWord .closed)
  | .strData b => .event .strWait 0 (eventWord (.byte b))
  | .ack => .control .loop (packControl (ControlPoint.code .ackTx) 0 0)
  | .sessionBegin p => .control .loop (beginWord p)
  | .beginSession p => .control .call (beginWord p)
  | .wrStep p => .control .loop (writeWord p 0)
  | .writeByte p => .control .call (writeWord p 0)
  | .latchAh p => .control .part (writeWord ((0 : BitVec 2) ++ p) 0)
  | .latchAl p => .control .part (writeWord ((1 : BitVec 2) ++ p) 0)
  | .latchD p => .control .part (writeWord ((2 : BitVec 2) ++ p) 0)
  | .wePulse p => .control .part (writeWord ((3 : BitVec 2) ++ p) 0)
  | .wrOk => .control .ret (writeWord 14 0)
  | .wrErr => .control .ret (writeWord 14 1)
  | .confirm => .control .loop (packControl (ControlPoint.code .confirmTx) 0 0)
  | .finEnd p => .control .loop (endWord p)
  | .endSession p => .control .call (endWord p)
  | .finReport => .control .loop (packControl (ControlPoint.code .report) 0 0)
  | .hUpload a image => .host (startMarker :: a.extractLsb' 0 8 :: a.extractLsb' 8 8 :: (image ++ [endMarker]))

/-! ### The rows of spec/opcode_table.json, transcribed -/

/-- The key of one row. An event row: the control point, `hdr_cnt` where it is looked at, mask, match and
priority. A control row: the mask and value of its pattern and, where the table has an exclusion, the mask and
value of the excluded words. The host row: its first byte. -/
inductive RowKey where
  | event (cp : ControlPoint) (hdrCnt : Option (BitVec 1)) (mask value : BitVec 10) (priority : Nat)
  | control (group : RowGroup) (mask value : BitVec 9) (excluded : Option (BitVec 9 × BitVec 9))
  | host (head : Byte)
deriving DecidableEq, Repr

/-- The row of an instruction's constructor, as the table writes it. -/
def Instr.row : Instr → RowKey
  | .idleStart => .event .idleWait none 0x3FF 0x055 0
  | .idleSkip _ => .event .idleWait none 0x300 0x000 1
  | .idleTmo => .event .idleWait none 0x300 0x100 0
  | .idleClosed => .event .idleWait none 0x300 0x200 0
  | .hdrLo _ => .event .hdrWait (some 0) 0x300 0x000 0
  | .hdrHi _ => .event .hdrWait (some 1) 0x300 0x000 0
  | .hdrTmo => .event .hdrWait none 0x300 0x100 0
  | .hdrClosed => .event .hdrWait none 0x300 0x200 0
  | .strTmo => .event .strWait none 0x300 0x100 0
  | .strEnd => .event .strWait none 0x3FF 0x045 0
  | .strClosed => .event .strWait none 0x300 0x200 0
  | .strData _ => .event .strWait none 0x300 0x000 1
  | .ack => .control .loop 0b111100000 0b000100000 none
  | .sessionBegin _ => .control .loop 0b111111000 0b001100000 none
  | .beginSession _ => .control .call 0b111111000 0b001100000 none
  | .wrStep _ => .control .loop 0b111100000 0b010100000 (some (0b000011110, 0b000011110))
  | .writeByte _ => .control .call 0b111100000 0b010100000 (some (0b000011110, 0b000011110))
  | .latchAh _ => .control .part 0b111111000 0b010100000 none
  | .latchAl _ => .control .part 0b111111000 0b010101000 none
  | .latchD _ => .control .part 0b111111000 0b010110000 none
  | .wePulse _ => .control .part 0b111111000 0b010111000 (some (0b000000110, 0b000000110))
  | .wrOk => .control .ret 0b111111111 0b010111100 none
  | .wrErr => .control .ret 0b111111111 0b010111101 none
  | .confirm => .control .loop 0b111100000 0b011000000 none
  | .finEnd _ => .control .loop 0b111111000 0b011101000 none
  | .endSession _ => .control .call 0b111111000 0b011101000 none
  | .finReport => .control .loop 0b111100000 0b100000000 none
  | .hUpload _ _ => .host 0x55

/-- The 28 rows, in the table's order. -/
def table : List RowKey :=
  [Instr.row .idleStart, Instr.row (.idleSkip 0), Instr.row .idleTmo, Instr.row .idleClosed,
   Instr.row (.hdrLo 0), Instr.row (.hdrHi 0), Instr.row .hdrTmo, Instr.row .hdrClosed,
   Instr.row .strTmo, Instr.row .strEnd, Instr.row .strClosed, Instr.row (.strData 0)] ++
  [Instr.row .ack, Instr.row (.sessionBegin 0), Instr.row (.beginSession 0), Instr.row (.wrStep 0),
   Instr.row (.writeByte 0), Instr.row (.latchAh 0), Instr.row (.latchAl 0), Instr.row (.latchD 0),
   Instr.row (.wePulse 0), Instr.row .wrOk, Instr.row .wrErr, Instr.row .confirm,
   Instr.row (.finEnd 0), Instr.row (.endSession 0), Instr.row .finReport, Instr.row (.hUpload 0 [])]

/-- Does a word carry the fixed bits of a row, at the row's control point, outside its exclusion? -/
def RowKey.fits : RowKey → CodeWord → Bool
  | .event cp h mask value _, .event cp' h' ev =>
    cp == cp' && (h.isNone || h == some h') && (ev &&& mask) == value
  | .control g mask value ex, .control g' cw =>
    g == g' && (cw &&& mask) == value &&
      (match ex with
       | none => true
       | some (m, v) => (cw &&& m) != v)
  | .host head, .host stream => stream.head? == some head
  | _, _ => false

/-- The `"priority"` of a row; rows without one do not compete (30_encoding.md R107). -/
def RowKey.priority : RowKey → Nat
  | .event _ _ _ _ n => n
  | .control _ _ _ _ => 0
  | .host _ => 0

/-! ### Words as numbers -/

/-- The control point at which a bare 10-bit event word is read: that of the row that fixes all ten bits where
there is one (0x045 is `STR.END`), else `CP_IDLE_WAIT`, where the block is after reset (log 12). -/
def tableControlPoint (ev : BitVec 10) : ControlPoint :=
  if ev = eventWord (.byte endMarker) then .strWait else .idleWait

/-- The head of a host stream as a number: the start marker in bits 23 to 16, as the row's pattern is written, or, where
it is not there, in bits 7 to 0, the first byte lowest. The end marker completes the stream (log 12, log 13). -/
def tableHostStream (w : Nat) : List Byte :=
  let low := BitVec.ofNat 8 w
  let middle := BitVec.ofNat 8 (w / 2 ^ 8)
  let high := BitVec.ofNat 8 (w / 2 ^ 16)
  if high = startMarker then [high, middle, low, endMarker] else [low, middle, high, endMarker]

/-- A two-byte number is an event word where it is the match value of an event row, or where no row of the loop is
selected by it as a control word; else it is a control word (log 12). -/
def tableIsEvent (w : Nat) : Bool :=
  w == 0x055 || w == 0x045 || w == 0x000 || w == 0x100 || w == 0x200 ||
    (match decode (.control .loop (BitVec.ofNat 9 w)) with
     | .ok _ => decide (2 ^ 9 ≤ w)
     | .error _ => true)

/-- The number of a table row as the decoder's word. 24 bits: the head of the host row. 9 bits: a control word of the
loop. 10 bits: an event word. Two whole bytes: whichever of the two it is (log 12). -/
def tableCodeWord (nbits w : Nat) : Option CodeWord :=
  if nbits = 24 then if w < 2 ^ 24 then some (.host (tableHostStream w)) else none
  else if nbits = 9 ∨ (nbits ≠ 10 ∧ tableIsEvent w = false) then
    if w < 2 ^ 9 then some (.control .loop (BitVec.ofNat 9 w)) else none
  else if w < 2 ^ 10 then some (.event (tableControlPoint (BitVec.ofNat 10 w)) 0 (BitVec.ofNat 10 w))
  else none

/-- What the decoder reads from the number of a table row, `none` where it refuses. -/
def decodeTableWord (nbits w : Nat) : Option Instr :=
  match tableCodeWord nbits w with
  | none => none
  | some c =>
    match decode c with
    | .ok i => some i
    | .error _ => none

end Sys2Proof
end

