-- ==== Sys2Proof/Config.lean ====
section
/-! DEFINITION. What an implementation fixes (the parameters of 00_scope.md R5) and the free values. -/

namespace Sys2Proof

/-- A byte the spec leaves open: the content of a latch before its first pulse (10_state.md R38) and what a
block reset in mid-pulse leaves in a latch or a RAM cell (70_reset_and_hazards.md R283). The argument is the
number of the draw. No body: nothing can be proved of its value (log 4, log 6). -/
opaque Config.freeByte : Nat → Byte

/-- `T_IDLE_POLL`, OPEN in 00_scope.md R5: no source gives a value (log 3). -/
opaque Config.openIdlePoll : Nat

/-- `T_HDR` less one, OPEN in 00_scope.md R5, which asks only `T_HDR > 0` (log 3). -/
opaque Config.openHdrLessOne : Nat

/-- The parameters of 00_scope.md R5 that a rule reads, times in `TIME_UNIT`s of 1 microsecond (log 2).
`ADDR_W`, `DATA_W`, `BYTES_W`, `TIME_W` and the four markers are fixed in the types and the rules;
`MAX_CONSEC_TIMEOUTS` is none; `T_CLK` belongs to a clocked realisation only. -/
structure Params where
  /-- `LE_ACTIVE_LEVEL`: the pin level that asserts a latch-enable line. -/
  leActive : Level
  /-- `T_LATCH` -/
  tLatch : Nat
  /-- `T_WE` -/
  tWe : Nat
  /-- `T_SETTLE` -/
  tSettle : Nat
  /-- `T_BYTE` -/
  tByte : Nat
  /-- `T_IDLE_POLL` -/
  tIdlePoll : Nat
  /-- `T_HDR` -/
  tHdr : Nat
deriving DecidableEq, Repr

/-- The defaults of 00_scope.md R5. -/
def Params.defaults : Params where
  leActive := 1
  tLatch := 1
  tWe := 1
  tSettle := 100
  tByte := 1000000
  tIdlePoll := Config.openIdlePoll
  tHdr := Config.openHdrLessOne + 1

/-- What 00_scope.md R5 asks of the parameters: the four it says must be above zero are. -/
abbrev Params.Ok (p : Params) : Prop := 0 < p.tLatch ∧ 0 < p.tWe ∧ 0 < p.tSettle ∧ 0 < p.tHdr

end Sys2Proof
end

