-- ==== Sys2Proof/Machine/State.lean ====
section
/-! DEFINITION. The state of the block and of its environment as plain data, and the state after reset. -/

namespace Sys2Proof.Machine

/-! ### Control state -/

/-- `err`, `res_kind`: the error kind (10_state.md R23, 60_exceptions.md R240). -/
inductive ErrKind where
  | none
  | truncatedHeader
  | streamClosed
  | busError
deriving DecidableEq, Repr

/-- `fsm`, the document's protocol state, a function of `cp` and `err` (10_state.md R22). -/
inductive Fsm where
  | idle
  | awaitingAddress
  | streaming
  | done
  | failed
deriving DecidableEq, Repr

/-- What `write_byte` returns to the UPSM (40_bus_sequencer.md R120, R132). -/
inductive WriteResult where
  | ok
  | busError
deriving DecidableEq, Repr

/-! ### Data registers -/

/-- The UploadSession group and the flag that says it is live (10_state.md R25, R26). -/
structure Session where
  /-- `sess_valid` -/
  valid : Bool
  /-- `start_address` -/
  startAddress : Addr
  /-- `cursor` -/
  cursor : Addr
  /-- `bytes_written` -/
  bytesWritten : BitVec 32
  /-- `started_at` -/
  startedAt : Time
deriving DecidableEq, Repr

/-- The group cleared to the reset values (10_state.md R26, R43). -/
def Session.cleared : Session where
  valid := false
  startAddress := 0
  cursor := 0
  bytesWritten := 0
  startedAt := 0

/-- The BusWriteRequest in flight, `wr_addr` and `wr_data` (10_state.md R29). -/
structure WriteRequest where
  addr : Addr
  data : Byte
deriving DecidableEq, Repr

/-! ### BusLineState -/

/-- The eight one-bit lines the block drives (10_state.md R33). -/
inductive Line where
  | leAh | leAl | leD | weN | csN | oeN | trstN | loeN
deriving DecidableEq, Repr

/-- BusLineState: the level last driven on each line (10_state.md R33). -/
structure BusLines where
  bus : Byte
  leAh : Level
  leAl : Level
  leD : Level
  weN : Level
  csN : Level
  oeN : Level
  trstN : Level
  loeN : Level
deriving DecidableEq, Repr

/-- The reset levels (10_state.md R43): the enables de-asserted, the active-low lines at 1, the bus at 0x00. -/
def BusLines.atReset (leActive : Level) : BusLines where
  bus := 0x00
  leAh := ~~~leActive
  leAl := ~~~leActive
  leD := ~~~leActive
  weN := 1
  csN := 1
  oeN := 1
  trstN := 1
  loeN := 1

/-! ### Results and the trace -/

/-- The result registers (10_state.md R36). -/
structure ResultRecord where
  /-- `res_status`: 0 `Done`, 1 `Failed` -/
  status : BitVec 1
  /-- `res_kind` -/
  kind : ErrKind
  /-- `res_bytes` -/
  bytes : BitVec 32
  /-- `res_start` -/
  start : Addr
  /-- `res_elapsed` -/
  elapsed : Time
deriving DecidableEq, Repr

/-- The result registers at reset (10_state.md R36, R43). -/
def ResultRecord.cleared : ResultRecord where
  status := 0
  kind := .none
  bytes := 0
  start := 0
  elapsed := 0

/-- The guard a `Wait` event speaks of (00_scope.md R12). -/
inductive Guard where
  | latch | we | settle
deriving DecidableEq, Repr

/-- An output event (00_scope.md R12). -/
inductive OutEvent where
  | bus (v : Byte)
  | set (line : Line) (level : Level)
  | wait (g : Guard)
  | tx (b : Byte)
  | warn
  | result (r : ResultRecord)
deriving DecidableEq, Repr

/-! ### Environment -/

/-- The three external latches (10_state.md R38). -/
structure Latches where
  ah : Byte
  al : Byte
  dl : Byte
deriving DecidableEq, Repr

/-- The levels at the input ports; `bus_fault` is the `fault_inject` oracle (10_state.md R42, 40_bus_sequencer.md
R132). `rxClosed` is a report of a closed stream not yet taken (R42, 92_eei_decisions.md D40; log 7). -/
structure InPorts where
  rxClosed : Bool
  txReady : Bool
  busFault : Bool
deriving DecidableEq, Repr

/-- The wait timer of the current wait point: when it was loaded, which no step reads, and whether it has run out, which
the environment says at any moment (10_state.md R45 (3), 60_exceptions.md R259, 42_upload_protocol.md R171 (c); log 8). -/
structure WaitTimer where
  loadedAt : Nat
  expired : Bool
deriving DecidableEq, Repr

/-- Errors of `H.UPLOAD` (43_host_uploader.md R222, R223, R224). -/
inductive UploadError where
  | unexpectedAck
  | unexpectedConfirm
  | transport
deriving DecidableEq, Repr

/-- What the last run of `H.UPLOAD` returned, if one has ended (43_host_uploader.md R221). -/
inductive HostResult where
  | nothing
  | ok (byteCount : Nat)
  | err (e : UploadError)
deriving DecidableEq, Repr

/-- The next step of the host's run of `H.UPLOAD` (43_host_uploader.md R221; log 13). -/
inductive HostPhase where
  | idle         -- no run; a run begins by sending 0x55 (step 1)
  | readAck      -- step 2
  | sendLo       -- step 3, low byte
  | sendHi       -- step 3, high byte
  | sendImage    -- step 4, and step 5 when the image is out
  | readConfirm  -- steps 6 and 7
deriving DecidableEq, Repr

/-- The host's run of `H.UPLOAD` (43_host_uploader.md R221). -/
structure HostRun where
  phase : HostPhase
  /-- the operand `start_address` of the run -/
  start : Addr
  /-- the operand `image_bytes` of the run -/
  image : List Byte
  /-- the bytes of the image not yet sent -/
  left : List Byte
  /-- the transport reports an error at this step: open failure or no reply in the host's time (R224) -/
  linkError : Bool
  result : HostResult
deriving DecidableEq, Repr

/-- One act of the environment; one act is one step of the model (log 1). -/
inductive EnvAct where
  /-- the CORE's turn: `dt` units of time have passed, the input ports have these levels, and if `expire` the
  wait timer has run out -/
  | core (dt : Nat) (ports : InPorts) (expire : Bool)
  /-- a byte enters the receive channel, sent by anyone at any time (43_host_uploader.md R226) -/
  | send (b : Byte)
  /-- the host takes the next step of its run -/
  | host (linkError : Bool)
  /-- the host's operator starts `H.UPLOAD`, giving up a run that has not ended -/
  | upload (start : Addr) (image : List Byte) (linkError : Bool)
  /-- the host takes a reply that waits in the transmit channel, outside the reads of a run, and drops it (log 13) -/
  | drain
  /-- `rst_n` is low (70_reset_and_hazards.md R280) -/
  | reset
deriving DecidableEq, Repr

/-- The RAM: the cells written so far. An unlisted cell has no value (20_memory.md R80; log 5). Canonical form:
addresses strictly rising. -/
abbrev Memory := List Host.Cell

/-! ### The state -/

/-- Everything the spec gives the machine and its environment (10_state.md R20), and the model's own fields
(`wrRet`, `pulseOk`, `draws`, `env`; logs 11, 14, 4, 1). -/
structure State where
  /-- the parameters (00_scope.md R5), which no step writes (log 2) -/
  params : Params
  cp : ControlPoint
  err : ErrKind
  hdrCnt : BitVec 1
  hdrLo : Byte
  wphase : WPhase
  sphase : SPhase
  sess : Session
  tEnd : Time
  wr : WriteRequest
  wrRet : WriteResult
  lines : BusLines
  res : ResultRecord
  /-- the pulse `warn_timeout` (10_state.md R42) -/
  warnTimeout : Bool
  /-- the pulse `res_valid` (10_state.md R42) -/
  resValid : Bool
  /-- the time base, never decreasing (00_scope.md R10) -/
  now : Nat
  timer : WaitTimer
  ports : InPorts
  /-- the receive channel, next byte first (10_state.md R40) -/
  rx : List Byte
  /-- the transmit channel, next byte first (10_state.md R40) -/
  tx : List Byte
  latches : Latches
  /-- `cs_n = 0` and `loe_n = 0` have held since `we_n` fell (20_memory.md R69) -/
  pulseOk : Bool
  mem : Memory
  /-- how many free bytes have been drawn -/
  draws : Nat
  host : HostRun
  /-- the output events so far, oldest first (00_scope.md R12) -/
  trace : List OutEvent
  /-- what the environment will do, next act first -/
  env : List EnvAct
deriving DecidableEq, Repr

/-- The stops of the machine. A failed session is no stop: it is taken (60_exceptions.md R252). -/
inductive Fault where
  /-- Raised by `step` where the control point and its phase select no row of the table: `cp` is `CP_WRITE`,
  `CP_BEGIN` or `CP_END` with a phase outside that operation. 10_state.md R46 says no run holds such a state, and
  93_implementation_defined.md U13 says to refuse it. Safe (log 20). -/
  | noRow
deriving DecidableEq, Repr

/-- The refusals of the machine. -/
inductive Refusal where
  /-- Raised by `exec` alone, for a row that has no meaning yet; no row is left so. Safe. -/
  | notModelled (mnemonic : String)
deriving DecidableEq, Repr

/-- The machine right after reset: the block by the table of 10_state.md R43, the environment at the values that
the log names. -/
def State.reset : State where
  params := Params.defaults
  cp := .idleWait
  err := .none
  hdrCnt := 0
  hdrLo := 0x00
  wphase := .wIdle
  sphase := .sIdle
  sess := Session.cleared
  tEnd := 0
  wr := { addr := 0x0000, data := 0x00 }
  wrRet := .ok
  lines := BusLines.atReset Params.defaults.leActive
  res := ResultRecord.cleared
  warnTimeout := false
  resValid := false
  now := 0
  timer := { loadedAt := 0, expired := false }
  ports := { rxClosed := false, txReady := true, busFault := false }
  rx := []
  tx := []
  latches := { ah := Config.freeByte 0, al := Config.freeByte 1, dl := Config.freeByte 2 }
  pulseOk := false
  mem := []
  draws := 3
  host := { phase := .idle, start := 0, image := [], left := [], linkError := false, result := .nothing }
  trace := []
  env := []

end Sys2Proof.Machine
end

