-- ==== Sys2Proof/Machine/Operands.lean ====
section
/-! DEFINITION. Operand forms: the split and the assembly of addresses, the two increments, time stamps, and the
phases that a row's phase bits name. -/

namespace Sys2Proof.Machine

/-- `wr_addr[15:8]`, the address-high byte (20_memory.md R63). -/
def addrHigh (a : Addr) : Byte := a.extractLsb' 8 8

/-- `wr_addr[7:0]`, the address-low byte (20_memory.md R63). -/
def addrLow (a : Addr) : Byte := a.extractLsb' 0 8

/-- `{AH, AL}`: the address at the RAM's pins (20_memory.md R64, R69). -/
def latchAddress (l : Latches) : Addr := l.ah ++ l.al

/-- `cursor +_16 1` (42_upload_protocol.md R200). -/
def nextCursor (a : Addr) : Addr := a + 1

/-- `bytes_written +_32 1` (42_upload_protocol.md R201). -/
def nextCount (n : BitVec 32) : BitVec 32 := n + 1

/-- The value of `now` a register of `TIME_W` bits samples (10_state.md R41). -/
def stamp (now : Nat) : Time := BitVec.ofNat 64 now

/-- `t_end -_TIME_W started_at` (42_upload_protocol.md R203). -/
def elapsed (tEnd startedAt : Time) : Time := tEnd - startedAt

/-- The level that asserts a latch-enable line (30_encoding.md R105). -/
def assertLevel (s : State) : Level := s.params.leActive

/-- The level that de-asserts a latch-enable line (30_encoding.md R105). -/
def releaseLevel (s : State) : Level := ~~~s.params.leActive

/-- The phases of `LATCH_AH` from phase `pp` on (40_bus_sequencer.md R122). -/
def latchAhFrom (pp : BitVec 2) : List WPhase := [WPhase.ahPut, .ahAssert, .ahHold, .ahRelease].drop pp.toNat

/-- The phases of `LATCH_AL` from phase `4 + pp` on (40_bus_sequencer.md R123). -/
def latchAlFrom (pp : BitVec 2) : List WPhase := [WPhase.alPut, .alAssert, .alHold, .alRelease].drop pp.toNat

/-- The phases of `LATCH_D` from phase `8 + pp` on (40_bus_sequencer.md R124). -/
def latchDFrom (pp : BitVec 2) : List WPhase := [WPhase.dPut, .dAssert, .dHold, .dRelease].drop pp.toNat

/-- The phases of `WE_PULSE` from phase `12 + pp` on (40_bus_sequencer.md R125). -/
def wePulseFrom (pp : BitVec 2) : List WPhase := [WPhase.weLow, .weHold, .weHigh].drop pp.toNat

/-- The phases of `WRITE_BYTE` from phase `pppp` on: `LATCH_AH ; LATCH_AL ; LATCH_D ; WE_PULSE`
(40_bus_sequencer.md R126). -/
def writeByteFrom (p : BitVec 4) : List WPhase :=
  (latchAhFrom 0 ++ latchAlFrom 0 ++ latchDFrom 0 ++ wePulseFrom 0).drop p.toNat

/-- The phases of `BEGIN_SESSION` from phase `pp` on (41_session_controller.md R151). -/
def beginSessionFrom (pp : BitVec 2) : List SPhase := [SPhase.bReset, .bSettle, .bCs, .bLoe].drop pp.toNat

/-- The phases of `END_SESSION` from phase `4 + pp` on (41_session_controller.md R152). -/
def endSessionFrom (pp : BitVec 2) : List SPhase := [SPhase.eLoe, .eCs, .eReset, .eSettle].drop pp.toNat

/-- `wphase + 1` (40_bus_sequencer.md R127); after phase 14 the write is over, and `W_IDLE` stays. -/
def nextWPhase : WPhase → WPhase
  | .ahPut => .ahAssert | .ahAssert => .ahHold | .ahHold => .ahRelease | .ahRelease => .alPut
  | .alPut => .alAssert | .alAssert => .alHold | .alHold => .alRelease | .alRelease => .dPut
  | .dPut => .dAssert | .dAssert => .dHold | .dHold => .dRelease | .dRelease => .weLow
  | .weLow => .weHold | .weHold => .weHigh | .weHigh => .wIdle | .wIdle => .wIdle

/-- `sphase + 1`, except that after phases 3 and 7 it is 8 (41_session_controller.md R159). -/
def nextSPhase : SPhase → SPhase
  | .bReset => .bSettle | .bSettle => .bCs | .bCs => .bLoe | .bLoe => .sIdle
  | .eLoe => .eCs | .eCs => .eReset | .eReset => .eSettle | .eSettle => .sIdle
  | .sIdle => .sIdle

end Sys2Proof.Machine
end

