-- ==== Sys2Proof/Machine/Flags.lean ====
section
/-! DEFINITION. Status: what is computed from the control state, and the record a session reports. -/

namespace Sys2Proof.Machine

/-- `fsm` (10_state.md R22). -/
def fsm (s : State) : Fsm :=
  match s.cp with
  | .idleWait | .ackTx => .idle
  | .hdrWait | .beginRun => .awaitingAddress
  | .strWait | .write | .confirmTx => .streaming
  | .endRun | .report => if s.err = .none then .done else .failed

/-- The code of `fsm` (10_state.md R22, 30_encoding.md R103). -/
def fsmCode : Fsm → BitVec 3
  | .idle => 0 | .awaitingAddress => 1 | .streaming => 2 | .done => 3 | .failed => 4

/-- The code of `err` and `res_kind` (10_state.md R23). -/
def errCode : ErrKind → BitVec 2
  | .none => 0 | .truncatedHeader => 1 | .streamClosed => 2 | .busError => 3

/-- The port `tx_valid`: 1 while `cp` is a send point (10_state.md R42). -/
def txValid (s : State) : Bool := s.cp == .ackTx || s.cp == .confirmTx

/-- The port `tx_data`: 0x41 at `CP_ACK_TX`, 0x4B at `CP_CONFIRM_TX` (10_state.md R42). -/
def txData (s : State) : Option Byte :=
  match s.cp with
  | .ackTx => some ackByte
  | .confirmTx => some confirmByte
  | _ => none

/-- The port `rx_ready`: 1 only at a wait point (10_state.md R42). -/
def rxReady (s : State) : Bool := s.cp.isWait

/-- The port `rx_valid`: a byte is available (10_state.md R42). -/
def rxValid (s : State) : Bool := !s.rx.isEmpty

/-- The bus-ownership modes and the levels between them (60_exceptions.md R258). -/
inductive BusMode where
  | targetOwns
  | sequencerOwns
  | transitional
deriving DecidableEq, Repr

/-- The mode that the session lines show (60_exceptions.md R258, 41_session_controller.md R161). -/
def busMode (l : BusLines) : BusMode :=
  if l.trstN = 1 ∧ l.csN = 1 ∧ l.loeN = 1 then .targetOwns
  else if l.trstN = 0 ∧ l.csN = 0 ∧ l.loeN = 0 then .sequencerOwns
  else .transitional

/-- `failed` of FIN.REPORT (42_upload_protocol.md R193). -/
def sessionFailed (s : State) : Bool := s.err != .none

/-- The result record of the session that ends (42_upload_protocol.md R193, R194): a failure reports no bytes, and
without an UploadSession there is no address and no time to report. -/
def resultOf (s : State) : ResultRecord where
  status := if sessionFailed s then 1 else 0
  kind := s.err
  bytes := if sessionFailed s then 0 else s.sess.bytesWritten
  start := if s.sess.valid then s.sess.startAddress else 0
  elapsed := if s.sess.valid then elapsed s.tEnd s.sess.startedAt else 0

/-- The two status pulses last one step of the CORE (10_state.md R42; log 15). -/
def clearPulses (s : State) : State := { s with warnTimeout := false, resValid := false }

end Sys2Proof.Machine
end

