-- ==== Sys2Proof/Machine/Ops.lean ====
section
/-! DEFINITION. The named operations: the RAM, the trace, the lines and how the external parts react to them, the
guards, the wait timer, failure entry and return, the block's reset. -/

namespace Sys2Proof.Machine

/-- What an instruction answers. -/
abbrev Answer := Host.Outcome State Fault Refusal

/-! ### The RAM -/

/-- The content of one cell, `none` where nothing has written it (20_memory.md R80; log 5). -/
def Memory.read : Memory → Nat → Option Byte
  | [], _ => none
  | (k, v) :: m, a => if k = a then some v else Memory.read m a

/-- `RAM[a] <- b`: no other cell changes (20_memory.md R70, R79). -/
def Memory.write : Memory → Nat → Byte → Memory
  | [], a, b => [(a, b)]
  | (k, v) :: m, a, b =>
    if a < k then (a, b) :: (k, v) :: m
    else if a = k then (a, b) :: m
    else (k, v) :: Memory.write m a b

/-- Addresses strictly rising from `lo` on, all of them in the 65,536 cells (20_memory.md R60). -/
def Memory.wfFrom (lo : Nat) : Memory → Bool
  | [] => true
  | (k, _) :: m => decide (lo ≤ k) && decide (k < 65536) && Memory.wfFrom (k + 1) m

/-- The canonical form of the RAM. -/
def Memory.wf (m : Memory) : Bool := Memory.wfFrom 0 m

/-- The RAM cell at an address (20_memory.md R60). -/
def ramAt (s : State) (a : Addr) : Option Byte := Memory.read s.mem a.toNat

/-- `MemWrite(a, 1, b)` (00_scope.md R8). -/
def storeRam (a : Addr) (b : Byte) (s : State) : State := { s with mem := Memory.write s.mem a.toNat b }

/-! ### Trace, lines, guards -/

/-- `emit e` (00_scope.md R9, R12). -/
def emit (e : OutEvent) (s : State) : State := { s with trace := s.trace ++ [e] }

/-- `bus <- v`, the byte placed on the shared bus (40_bus_sequencer.md R121). -/
def driveBus (v : Byte) (s : State) : State := emit (.bus v) { s with lines := { s.lines with bus := v } }

/-- The level of a line (10_state.md R33). -/
def BusLines.level (b : BusLines) : Line → Level
  | .leAh => b.leAh | .leAl => b.leAl | .leD => b.leD | .weN => b.weN
  | .csN => b.csN | .oeN => b.oeN | .trstN => b.trstN | .loeN => b.loeN

/-- One line at a level, the others as they were (10_state.md R33). -/
def BusLines.drive (b : BusLines) (l : Line) (v : Level) : BusLines :=
  match l with
  | .leAh => { b with leAh := v }
  | .leAl => { b with leAl := v }
  | .leD => { b with leD := v }
  | .weN => { b with weN := v }
  | .csN => { b with csN := v }
  | .oeN => { b with oeN := v }
  | .trstN => { b with trstN := v }
  | .loeN => { b with loeN := v }

/-- Is a line being de-asserted that stood asserted? The moment a latch captures (20_memory.md R68). -/
def releases (s : State) (l : Line) (v : Level) : Bool :=
  s.lines.level l == assertLevel s && v != assertLevel s

/-- A latch's content after its enable line is driven to a level: the bus at the release, else as it was
(20_memory.md R68). -/
def captured (s : State) (l : Line) (v : Level) (old : Byte) : Byte := if releases s l v then s.lines.bus else old

/-- The latches after a line is driven to a level (20_memory.md R68). -/
def latchesAfter (l : Line) (v : Level) (s : State) : Latches :=
  match l with
  | .leAh => { s.latches with ah := captured s .leAh v s.latches.ah }
  | .leAl => { s.latches with al := captured s .leAl v s.latches.al }
  | .leD => { s.latches with dl := captured s .leD v s.latches.dl }
  | .weN | .csN | .oeN | .trstN | .loeN => s.latches

/-- Have `cs_n = 0` and `loe_n = 0` held since `we_n` fell, after a line is driven to a level (20_memory.md R69;
log 14). -/
def pulseAfter (l : Line) (v : Level) (s : State) : Bool :=
  match l with
  | .weN => if v = 0 ∧ s.lines.weN = 1 then s.lines.csN == 0 && s.lines.loeN == 0 else s.pulseOk
  | .csN | .loeN => if v = 1 then false else s.pulseOk
  | .leAh | .leAl | .leD | .oeN | .trstN => s.pulseOk

/-- Does the rise of `we_n` store: it ends a low pulse for the whole of which `cs_n = 0` and `loe_n = 0` held
(20_memory.md R69)? -/
abbrev strobeStores (s : State) : Prop :=
  s.lines.weN = 0 ∧ s.pulseOk = true ∧ s.lines.csN = 0 ∧ s.lines.loeN = 0

/-- The RAM after a line is driven to a level: at the rise of `we_n` that ends a low pulse `RAM[{AH, AL}] <- DL`
(20_memory.md R69). DESIGN CHOICE: where a latch was never loaded R69 does not model the write, and the model stores
what the latches hold, the free bytes of log 4, at the address they hold (log 25). -/
def memAfter (l : Line) (v : Level) (s : State) : Memory :=
  match l with
  | .weN => if v = 1 ∧ strobeStores s then Memory.write s.mem (latchAddress s.latches).toNat s.latches.dl else s.mem
  | .leAh | .leAl | .leD | .csN | .oeN | .trstN | .loeN => s.mem

/-- `line <- level`, with the reaction of the external parts in the same step (00_scope.md R12, R13). -/
def setLine (l : Line) (v : Level) (s : State) : State :=
  emit (.set l v) { s with
    lines := s.lines.drive l v
    latches := latchesAfter l v s
    pulseOk := pulseAfter l v s
    mem := memAfter l v s }

/-- The least time of a guard (00_scope.md R5). -/
def guardTime (p : Params) : Guard → Nat
  | .latch => p.tLatch
  | .we => p.tWe
  | .settle => p.tSettle

/-- `wait_ge(T)`: no line and no register moves, time grows by at least `T` (00_scope.md R9; log 18). -/
def hold (g : Guard) (s : State) : State := emit (.wait g) { s with now := s.now + guardTime s.params g }

/-- Hand a byte to the transmit channel, which accepts it: `Tx(b)` (00_scope.md R12, 10_state.md R40). -/
def sendTx (b : Byte) (s : State) : State := emit (.tx b) { s with tx := s.tx ++ [b] }

/-! ### The wait timer -/

/-- Load the wait timer (60_exceptions.md R259; log 8). -/
def loadTimer (s : State) : State := { s with timer := { loadedAt := s.now, expired := false } }

/-- The bound of the wait point the loop stands at (60_exceptions.md R259). No step depends on it (00_scope.md R10): it
serves the named premise `Timely` alone (log 8). -/
def waitBound (s : State) : Nat :=
  match s.cp with
  | .idleWait => s.params.tIdlePoll
  | .hdrWait => s.params.tHdr
  | .strWait => s.params.tByte
  | _ => 0

/-! ### The phases of a write and of the session bracket -/

/-- The action of one write phase (40_bus_sequencer.md R127). -/
def wPhaseAct (p : WPhase) (s : State) : State :=
  match p with
  | .ahPut => driveBus (addrHigh s.wr.addr) s
  | .ahAssert => setLine .leAh (assertLevel s) s
  | .ahHold => hold .latch s
  | .ahRelease => setLine .leAh (releaseLevel s) s
  | .alPut => driveBus (addrLow s.wr.addr) s
  | .alAssert => setLine .leAl (assertLevel s) s
  | .alHold => hold .latch s
  | .alRelease => setLine .leAl (releaseLevel s) s
  | .dPut => driveBus s.wr.data s
  | .dAssert => setLine .leD (assertLevel s) s
  | .dHold => hold .latch s
  | .dRelease => setLine .leD (releaseLevel s) s
  | .weLow => setLine .weN 0 s
  | .weHold => hold .we s
  | .weHigh => setLine .weN 1 s
  | .wIdle => s

/-- One step of a write: the phase's action, then `wphase <- wphase + 1` (40_bus_sequencer.md R127). -/
def wPhaseStep (p : WPhase) (s : State) : State := { wPhaseAct p s with wphase := nextWPhase p }

/-- Several phases of a write, in order. -/
def runWPhases (ps : List WPhase) (s : State) : State := ps.foldl (fun t p => wPhaseStep p t) s

/-- The action of one session phase (41_session_controller.md R159). -/
def sPhaseAct (p : SPhase) (s : State) : State :=
  match p with
  | .bReset => setLine .trstN 0 s
  | .bSettle => hold .settle s
  | .bCs => setLine .csN 0 s
  | .bLoe => setLine .loeN 0 s
  | .eLoe => setLine .loeN 1 s
  | .eCs => setLine .csN 1 s
  | .eReset => setLine .trstN 1 s
  | .eSettle => hold .settle s
  | .sIdle => s

/-- One step of the session controller: the action, then `sphase <- sphase + 1` (41_session_controller.md R159). -/
def sPhaseStep (p : SPhase) (s : State) : State := { sPhaseAct p s with sphase := nextSPhase p }

/-- Several phases of the session controller, in order. -/
def runSPhases (ps : List SPhase) (s : State) : State := ps.foldl (fun t p => sPhaseStep p t) s

/-- The Result of the write whose phase 14 is done: `Err(BusError)` if the oracle says so (40_bus_sequencer.md
R132). -/
def writeResult (s : State) : WriteResult := if s.ports.busFault then .busError else .ok

/-! ### Failure entry and return -/

/-- `raise Failed(kind)`: `err <- kind; t_end <- now; sphase <- 4; cp <- CP_END`, and nothing else
(60_exceptions.md R252). -/
def raiseFailed (kind : ErrKind) (s : State) : State :=
  { s with err := kind, tEnd := stamp s.now, sphase := .eLoe, cp := .endRun }

/-- The same entry into END_SESSION for `Done`, with `err` as it is (42_upload_protocol.md R189). -/
def enterDone (s : State) : State := { s with tEnd := stamp s.now, sphase := .eLoe, cp := .endRun }

/-- The return to Idle: the result is reported, the session destroyed, `err` cleared (42_upload_protocol.md R193,
60_exceptions.md R255). -/
def returnToIdle (s : State) : State :=
  loadTimer (emit (.result (resultOf s))
    { s with
      res := resultOf s
      resValid := true
      sess := Session.cleared
      err := .none
      cp := .idleWait })

/-- `Ok` returned to the UPSM (42_upload_protocol.md R187). -/
def acceptWrite (s : State) : State :=
  loadTimer { s with
    sess := { s.sess with cursor := nextCursor s.sess.cursor, bytesWritten := nextCount s.sess.bytesWritten }
    wphase := .wIdle
    cp := .strWait }

/-- `Err(BusError)` returned to the UPSM: no increment (42_upload_protocol.md R188). -/
def rejectWrite (s : State) : State := raiseFailed .busError { s with wphase := .wIdle }

/-- Session initialisation, after phase 3 of BEGIN_SESSION (42_upload_protocol.md R181). -/
def openSession (s : State) : State :=
  loadTimer { s with
    sphase := .sIdle
    sess := { s.sess with
      cursor := s.sess.startAddress
      bytesWritten := 0
      startedAt := stamp s.now
      valid := true }
    cp := .strWait }

/-! ### The block's reset -/

/-- What a reset in mid-pulse leaves in the external parts: a free byte in the latch, or in the RAM cell, whose
pulse it cuts short (70_reset_and_hazards.md R283, 93_implementation_defined.md U7; log 6). -/
def cutPulse (s : State) : State :=
  match s.wphase with
  | .ahHold | .ahRelease =>
    { s with latches := { s.latches with ah := Config.freeByte s.draws }, draws := s.draws + 1 }
  | .alHold | .alRelease =>
    { s with latches := { s.latches with al := Config.freeByte s.draws }, draws := s.draws + 1 }
  | .dHold | .dRelease =>
    { s with latches := { s.latches with dl := Config.freeByte s.draws }, draws := s.draws + 1 }
  | .weHold | .weHigh =>
    storeRam (latchAddress s.latches) (Config.freeByte s.draws) { s with draws := s.draws + 1 }
  | .ahPut | .ahAssert | .alPut | .alAssert | .dPut | .dAssert | .weLow | .wIdle => s

/-- `rst_n` low: every register of the block at its reset value and every line at its rest level at once, with no
event, no result and no byte sent; the RAM, the latches and the channels stay, but for a pulse cut short
(70_reset_and_hazards.md R280 to R284; log 6, log 17). -/
def blockReset (s : State) : State :=
  loadTimer { cutPulse s with
    cp := .idleWait
    err := .none
    hdrCnt := 0
    hdrLo := 0x00
    wphase := .wIdle
    sphase := .sIdle
    sess := Session.cleared
    tEnd := 0
    wr := { addr := 0x0000, data := 0x00 }
    wrRet := .ok
    lines := BusLines.atReset s.params.leActive
    res := ResultRecord.cleared
    warnTimeout := false
    resValid := false
    pulseOk := false }

end Sys2Proof.Machine
end

