-- ==== Sys2Proof/Machine/BusSequencer.lean ====
section
/-! DEFINITION. The Bus Sequencer: LATCH_AH, LATCH_AL, LATCH_D, WE_PULSE, WRITE_BYTE (40_bus_sequencer.md), and the
loop steps WR.STEP, WR.OK, WR.ERR that run a write and take its result (42_upload_protocol.md). The operations run
from the phase their bits name to their end; WR.STEP runs one phase (log 10). -/

namespace Sys2Proof.Machine

/-- `LATCH_AH`: `LATCH(le_ah, wr_addr[15:8])` (R122, R121). -/
def execLatchAh (p : BitVec 2) (s : State) : Answer := .next (runWPhases (latchAhFrom p) s)

/-- `LATCH_AL`: `LATCH(le_al, wr_addr[7:0])` (R123, R121). -/
def execLatchAl (p : BitVec 2) (s : State) : Answer := .next (runWPhases (latchAlFrom p) s)

/-- `LATCH_D`: `LATCH(le_d, wr_data)` (R124, R121). -/
def execLatchD (p : BitVec 2) (s : State) : Answer := .next (runWPhases (latchDFrom p) s)

/-- `WE_PULSE`: `we_n` low, held for at least `T_WE`, high (R125). -/
def execWePulse (p : BitVec 2) (s : State) : Answer := .next (runWPhases (wePulseFrom p) s)

/-- `WRITE_BYTE`: the whole pulse train, `wphase <- 15`, and the Result returned (R126, R132; log 11). -/
def execWriteByte (p : BitVec 4) (s : State) : Answer :=
  .next { runWPhases (writeByteFrom p) s with wphase := .wIdle, wrRet := writeResult s }

/-- `WR.STEP`: one phase of the write; after phase 14 the result is known and exactly one of WR.OK and WR.ERR fires
in the same step (42_upload_protocol.md R190, R127). -/
def execWrStep (p : BitVec 4) (s : State) : Answer :=
  match WPhase.ofCode p with
  | .weHigh =>
    match writeResult s with
    | .ok => .next (acceptWrite { wPhaseStep .weHigh s with wrRet := .ok })
    | .busError => .next (rejectWrite { wPhaseStep .weHigh s with wrRet := .busError })
  | ph => .next (wPhaseStep ph s)

/-- `WR.OK`: `cursor` and `bytes_written` go up by one, `wphase <- 15; cp <- CP_STR_WAIT` (42_upload_protocol.md
R187). -/
def execWrOk (s : State) : Answer := .next (acceptWrite s)

/-- `WR.ERR`: `wphase <- 15; raise Failed(BusError)`, no increment (42_upload_protocol.md R188). -/
def execWrErr (s : State) : Answer := .next (rejectWrite s)

end Sys2Proof.Machine
end

