-- ==== Sys2Proof/Machine/HostUploader.lean ====
section
/-! DEFINITION. The Host Uploader's operation H.UPLOAD, one step of its run at a time (43_host_uploader.md R221 to
R225; log 13). It reaches the block through the two byte channels only. -/

namespace Sys2Proof.Machine

/-- The host puts a byte into the receive channel (10_state.md R40). -/
def hostSend (b : Byte) (s : State) : State := { s with rx := s.rx ++ [b] }

/-- The run goes on at a phase. -/
def hostAt (ph : HostPhase) (s : State) : State := { s with host := { s.host with phase := ph } }

/-- The run ends with a result (43_host_uploader.md R221, R224). -/
def hostEnd (r : HostResult) (s : State) : State := { s with host := { s.host with phase := .idle, result := r } }

/-- `receive 1 byte ; if r != want: return Err(e)`: with no byte in the transmit channel the host waits
(43_host_uploader.md R221). -/
def hostReceive (want : Byte) (e : UploadError) (good : State → State) (s : State) : State :=
  match s.tx with
  | [] => s
  | r :: rest => if r = want then good { s with tx := rest } else hostEnd (.err e) { s with tx := rest }

/-- Step 1: the run starts by sending 0x55 (43_host_uploader.md R221). -/
def hostStart (start : Addr) (image : List Byte) (s : State) : State :=
  hostSend startMarker { s with
    host := { s.host with phase := .readAck, start := start, image := image, left := image, result := .nothing } }

/-- Steps 4 and 5: the next byte of the image, or 0x45 when it is out (43_host_uploader.md R221). -/
def hostSendImage (s : State) : State :=
  match s.host.left with
  | b :: rest => hostSend b { s with host := { s.host with left := rest } }
  | [] => hostAt .readConfirm (hostSend endMarker s)

/-- One step of the run, by its phase; `Ok` carries the number of bytes the host sent (43_host_uploader.md R221,
R225). A transport error ends the run with an error kind of its own (R224). -/
def hostStep (start : Addr) (image : List Byte) (s : State) : State :=
  if s.host.linkError then hostEnd (.err .transport) s
  else
    match s.host.phase with
    | .idle => hostStart start image s
    | .readAck => hostReceive ackByte .unexpectedAck (hostAt .sendLo) s
    | .sendLo => hostAt .sendHi (hostSend (addrLow start) s)
    | .sendHi => hostAt .sendImage (hostSend (addrHigh start) s)
    | .sendImage => hostSendImage s
    | .readConfirm => hostReceive confirmByte .unexpectedConfirm (hostEnd (.ok image.length)) s

/-- `H.UPLOAD`: the next step of the host's run with these operands (R221). -/
def execHUpload (start : Addr) (image : List Byte) (s : State) : Answer := .next (hostStep start image s)

end Sys2Proof.Machine
end

