-- ==== Sys2Proof/Machine/SessionController.lean ====
section
/-! DEFINITION. The Reset/Session Controller: BEGIN_SESSION, END_SESSION (41_session_controller.md), and the loop
steps SESSION.BEGIN and FIN.END that run them (42_upload_protocol.md). The operations run from the phase their bits
name to their end; the loop steps run one phase (log 10). -/

namespace Sys2Proof.Machine

/-- `BEGIN_SESSION`: the target held in reset, the settle delay, chip-select, latch outputs (R151). -/
def execBeginSession (p : BitVec 2) (s : State) : Answer := .next (runSPhases (beginSessionFrom p) s)

/-- `END_SESSION`: latch outputs off, chip-select off, the target released, the settle delay (R152). -/
def execEndSession (p : BitVec 2) (s : State) : Answer := .next (runSPhases (endSessionFrom p) s)

/-- `SESSION.BEGIN`: one phase of BEGIN_SESSION; when phase 3 is done the UploadSession is initialised and
`cp <- CP_STR_WAIT` (42_upload_protocol.md R181). -/
def execSessionBegin (p : BitVec 2) (s : State) : Answer :=
  match SPhase.ofBegin p with
  | .bLoe => .next (openSession (sPhaseStep .bLoe s))
  | ph => .next (sPhaseStep ph s)

/-- `FIN.END`: one phase of END_SESSION; when phase 7 is done `sphase <- 8; cp <- CP_REPORT` (42_upload_protocol.md
R191, R192). -/
def execFinEnd (p : BitVec 2) (s : State) : Answer :=
  match SPhase.ofEnd p with
  | .eSettle => .next { sPhaseStep .eSettle s with sphase := .sIdle, cp := .report }
  | ph => .next (sPhaseStep ph s)

end Sys2Proof.Machine
end

