-- ==== Sys2Proof/Machine/UploadProtocol.lean ====
section
/-! DEFINITION. The Upload Protocol State Machine: the twelve event rows, ACK, CONFIRM and FIN.REPORT
(42_upload_protocol.md). -/

namespace Sys2Proof.Machine

/-- `IDLE.START`: `cp <- CP_ACK_TX` (R172). -/
def execIdleStart (s : State) : Answer := .next { s with cp := .ackTx }

/-- `IDLE.SKIP`: the byte is consumed and lost, nothing changes (R173). -/
def execIdleSkip (_b : Byte) (s : State) : Answer := .next s

/-- `IDLE.TMO`: nothing changes, the wait starts again (R174, 60_exceptions.md R259). -/
def execIdleTmo (s : State) : Answer := .next (loadTimer s)

/-- `IDLE.CLOSED`: nothing changes (R175). -/
def execIdleClosed (s : State) : Answer := .next s

/-- `ACK`: when the transmit channel accepts, `Tx(0x41)`, `hdr_cnt <- 0`, `cp <- CP_HDR_WAIT`, and the header timer
starts; until then the block waits here (R176). -/
def execAck (s : State) : Answer :=
  if s.ports.txReady then .next (loadTimer { sendTx ackByte s with hdrCnt := 0, cp := .hdrWait })
  else .next s

/-- `HDR.LO`: `hdr_lo <- b; hdr_cnt <- 1`; the header timer goes on (R177). -/
def execHdrLo (b : Byte) (s : State) : Answer := .next { s with hdrLo := b, hdrCnt := 1 }

/-- `HDR.HI`: `start_address <- {b, hdr_lo}; hdr_cnt <- 0; sphase <- 0; cp <- CP_BEGIN` (R178). -/
def execHdrHi (b : Byte) (s : State) : Answer :=
  .next { s with
    sess := { s.sess with startAddress := headerAddress b s.hdrLo }
    hdrCnt := 0
    sphase := .bReset
    cp := .beginRun }

/-- `HDR.TMO`: `raise Failed(TruncatedHeader)` (R179). -/
def execHdrTmo (s : State) : Answer := .next (raiseFailed .truncatedHeader s)

/-- `HDR.CLOSED`: nothing changes, the header timer keeps running (R180). -/
def execHdrClosed (s : State) : Answer := .next s

/-- `STR.TMO`: `emit Warn`, the pulse `warn_timeout`, and the wait starts again (R183). -/
def execStrTmo (s : State) : Answer := .next (loadTimer (emit .warn { s with warnTimeout := true }))

/-- `STR.END`: `cp <- CP_CONFIRM_TX` (R184). -/
def execStrEnd (s : State) : Answer := .next { s with cp := .confirmTx }

/-- `STR.CLOSED`: `raise Failed(StreamClosed)` (R185). -/
def execStrClosed (s : State) : Answer := .next (raiseFailed .streamClosed s)

/-- `STR.DATA`: `wr_addr <- cursor; wr_data <- b; wphase <- 0; cp <- CP_WRITE` (R186). -/
def execStrData (b : Byte) (s : State) : Answer :=
  .next { s with wr := { addr := s.sess.cursor, data := b }, wphase := .ahPut, cp := .write }

/-- `CONFIRM`: when the transmit channel accepts, `Tx(0x4B); t_end <- now; sphase <- 4; cp <- CP_END`, with `err` as
it is; until then the block waits here (R189). -/
def execConfirm (s : State) : Answer :=
  if s.ports.txReady then .next (enterDone (sendTx confirmByte s)) else .next s

/-- `FIN.REPORT`: the result record is written and reported, the session destroyed, `cp <- CP_IDLE_WAIT` (R193). -/
def execFinReport (s : State) : Answer := .next (returnToIdle s)

end Sys2Proof.Machine
end

