-- ==== Sys2Proof/Machine/Dispatch.lean ====
section
/-! DEFINITION. One arm per row of spec/opcode_table.json. -/

namespace Sys2Proof.Machine

def exec (i : Instr) (s : State) : Host.Outcome State Fault Refusal :=
  match i with
  | .idleStart => Sys2Proof.Machine.execIdleStart s
  | .idleSkip b => Sys2Proof.Machine.execIdleSkip b s
  | .idleTmo => Sys2Proof.Machine.execIdleTmo s
  | .idleClosed => Sys2Proof.Machine.execIdleClosed s
  | .hdrLo b => Sys2Proof.Machine.execHdrLo b s
  | .hdrHi b => Sys2Proof.Machine.execHdrHi b s
  | .hdrTmo => Sys2Proof.Machine.execHdrTmo s
  | .hdrClosed => Sys2Proof.Machine.execHdrClosed s
  | .strTmo => Sys2Proof.Machine.execStrTmo s
  | .strEnd => Sys2Proof.Machine.execStrEnd s
  | .strClosed => Sys2Proof.Machine.execStrClosed s
  | .strData b => Sys2Proof.Machine.execStrData b s
  | .ack => Sys2Proof.Machine.execAck s
  | .sessionBegin p => Sys2Proof.Machine.execSessionBegin p s
  | .beginSession p => Sys2Proof.Machine.execBeginSession p s
  | .wrStep p => Sys2Proof.Machine.execWrStep p s
  | .writeByte p => Sys2Proof.Machine.execWriteByte p s
  | .latchAh p => Sys2Proof.Machine.execLatchAh p s
  | .latchAl p => Sys2Proof.Machine.execLatchAl p s
  | .latchD p => Sys2Proof.Machine.execLatchD p s
  | .wePulse p => Sys2Proof.Machine.execWePulse p s
  | .wrOk => Sys2Proof.Machine.execWrOk s
  | .wrErr => Sys2Proof.Machine.execWrErr s
  | .confirm => Sys2Proof.Machine.execConfirm s
  | .finEnd p => Sys2Proof.Machine.execFinEnd p s
  | .endSession p => Sys2Proof.Machine.execEndSession p s
  | .finReport => Sys2Proof.Machine.execFinReport s
  | .hUpload start image => Sys2Proof.Machine.execHUpload start image s

end Sys2Proof.Machine
end

