-- ==== Sys2Proof/Machine/Fetch.lean ====
section
/-! DEFINITION. What the next step runs: whose turn it is, which input event is pending at a wait point, and which
row the control state selects elsewhere. -/

namespace Sys2Proof.Machine

/-- What a step has to do: run an instruction from a state, nothing more than be in a state, or stop. -/
inductive Fetched where
  | run (i : Instr) (s : State)
  | still (s : State)
  | stuck (f : Fault)
deriving DecidableEq, Repr

/-- The event taken at a wait point, if there is one: a byte in the channel first, then a closed stream, then the
expired wait (60_exceptions.md R250, 42_upload_protocol.md R171; log 7). -/
def pendingEvent (s : State) : Option Event :=
  match s.rx with
  | b :: _ => some (.byte b)
  | [] => if s.ports.rxClosed then some .closed else if s.timer.expired then some .timeout else none

/-- Taking an event: the byte leaves the channel, the report of a closed stream is used up; a `Timeout` moves nothing,
the time among it, since the wait bounds appear only as that event (10_state.md R40, 92_eei_decisions.md D40,
00_scope.md R10; log 7, log 8). -/
def takeEvent (e : Event) (s : State) : State :=
  match e with
  | .byte _ => { s with rx := s.rx.tail }
  | .closed => { s with ports := { s.ports with rxClosed := false } }
  | .timeout => s

/-- The phase in the control word: `wphase` at CP_WRITE, `sphase` at CP_BEGIN and CP_END, not looked at elsewhere
(30_encoding.md R107). -/
def controlPhaseOf (s : State) : BitVec 4 :=
  match s.cp with
  | .write => s.wphase.code
  | .beginRun | .endRun => s.sphase.code
  | .idleWait | .ackTx | .hdrWait | .strWait | .confirmTx | .report => 0

/-- `CW = {cp, phase, bus_fault}` of a state (30_encoding.md R107). -/
def controlWord (s : State) : BitVec 9 :=
  packControl s.cp.code (controlPhaseOf s) (BitVec.ofBool s.ports.busFault)

/-- At a wait point: the row of the pending event; with none pending the block does not advance (00_scope.md R11,
30_encoding.md R98). -/
def fetchEvent (s : State) : Fetched :=
  match pendingEvent s with
  | none => .still s
  | some e =>
    match decode (.event s.cp s.hdrCnt (eventWord e)) with
    | .ok i => .run i (takeEvent e s)
    | .error _ => .stuck .noRow

/-- Elsewhere: the loop row of the control word (30_encoding.md R106, 42_upload_protocol.md R170). -/
def fetchControl (s : State) : Fetched :=
  match decode (.control .loop (controlWord s)) with
  | .ok i => .run i s
  | .error _ => .stuck .noRow

/-- The CORE's turn: the pulses of its last step end, then its one enabled step (42_upload_protocol.md R170). -/
def fetchCore (s : State) : Fetched :=
  if s.cp.isWait then fetchEvent (clearPulses s) else fetchControl (clearPulses s)

/-- The host's turn: the next step of a run of H.UPLOAD, nothing without one (43_host_uploader.md R221). -/
def fetchHost (s : State) : Fetched :=
  if s.host.phase = .idle then .still s else .run (.hUpload s.host.start s.host.image) s

/-- The inputs of the CORE's turn: time has passed, the ports have their levels, the wait timer may have run out. -/
def setInputs (dt : Nat) (ports : InPorts) (expire : Bool) (s : State) : State :=
  { s with
    now := s.now + dt
    ports := ports
    timer := { s.timer with expired := s.timer.expired || expire } }

/-- The transport's health at the host's step (43_host_uploader.md R224). -/
def setLink (linkError : Bool) (s : State) : State := { s with host := { s.host with linkError := linkError } }

/-- One act of the environment (log 1). -/
def fetchAct (a : EnvAct) (s : State) : Fetched :=
  match a with
  | .core dt ports expire => fetchCore (setInputs dt ports expire s)
  | .send b => .still { s with rx := s.rx ++ [b] }
  | .host linkError => fetchHost (setLink linkError s)
  | .upload start image linkError =>
    .run (.hUpload start image) { s with host := { s.host with phase := .idle, linkError := linkError } }
  | .drain => .still { s with tx := s.tx.tail }
  | .reset => .still (blockReset s)

/-- What the next step does: the environment's next act; when it has none left, the CORE's turn with the ports as
they are (log 1). -/
def fetch (s : State) : Fetched :=
  match s.env with
  | [] => fetchCore s
  | a :: rest => fetchAct a { s with env := rest }

/-! ### Placing a table row's word where the next step finds it (log 19) -/

/-- An event word at a control point: its event is the one pending. -/
def placeEvent (cp : ControlPoint) (ev : BitVec 10) (s : State) : State :=
  if eventKind ev = 0 then { s with env := [], cp := cp, rx := eventData ev :: s.rx }
  else { s with
    env := []
    cp := cp
    rx := []
    ports := { s.ports with rxClosed := eventKind ev == 2 }
    timer := { s.timer with expired := eventKind ev == 1 } }

/-- A control word: the control point, the phase and the fault input it is made of. -/
def placeControl (cw : BitVec 9) (s : State) : State :=
  match ControlPoint.ofCode (controlCp cw) with
  | none => s
  | some cp =>
    { s with
      env := []
      cp := cp
      wphase := if cp = .write then WPhase.ofCode (controlPhase cw) else s.wphase
      sphase := if cp = .beginRun ∨ cp = .endRun then SPhase.ofCode (controlPhase cw) else s.sphase
      ports := { s.ports with busFault := controlFault cw == 1 } }

/-- A host stream: the host's operator starts that upload. -/
def placeUpload (stream : List Byte) (s : State) : State :=
  match decodeHost stream with
  | .ok (.hUpload start image) => { s with env := [.upload start image false] }
  | _ => s

/-- The number of a table row, placed so that the very next step runs it. -/
def placeTableWord (s : State) (nbits w : Nat) : State :=
  match tableCodeWord nbits w with
  | some (.event cp _ ev) => placeEvent cp ev s
  | some (.control _ cw) => placeControl cw s
  | some (.host stream) => placeUpload stream s
  | none => s

end Sys2Proof.Machine
end

