-- ==== Sys2Proof/Machine/Step.lean ====
section
/-! DEFINITION. One step of the machine, and a table row's word placed for the next one. -/

namespace Sys2Proof.Machine

/-- Do what was fetched. -/
def perform : Fetched → Host.Outcome State Fault Refusal
  | .run i t => exec i t
  | .still t => .next t
  | .stuck f => .fault f

/-- One step: do what `fetch` finds. -/
def step (s : State) : Host.Outcome State Fault Refusal := perform (fetch s)

/-- `s` with the instruction of a table row placed where the next step takes it (log 19). -/
def State.withFetchWord (s : State) (nbits w : Nat) : State := placeTableWord s nbits w

end Sys2Proof.Machine
end

