-- ==== Sys2Proof/Safety.lean ====
section
/-! DEFINITION. What claims are stated in: the consistency of the control state, the levels the lines must have, the
session's counters, what a trace says, the pulse trains, and the order of control points. -/

namespace Sys2Proof.Safety

open Sys2Proof.Machine

/-! ### Consistency of the control state -/

/-- The phases of `BEGIN_SESSION`, 0 to 3 (10_state.md R31). -/
def SPhase.inBegin (p : SPhase) : Bool := p == .bReset || p == .bSettle || p == .bCs || p == .bLoe

/-- The phases of `END_SESSION`, 4 to 7 (10_state.md R31). -/
def SPhase.inEnd (p : SPhase) : Bool := p == .eLoe || p == .eCs || p == .eReset || p == .eSettle

/-- At most one of the Bus Sequencer and the session controller is active, and only at its control point
(10_state.md R46 (a) to (d)). -/
def ControlConsistent (s : State) : Prop :=
  match s.cp with
  | .write => s.wphase ≠ .wIdle ∧ s.sphase = .sIdle
  | .beginRun => SPhase.inBegin s.sphase = true ∧ s.wphase = .wIdle
  | .endRun => SPhase.inEnd s.sphase = true ∧ s.wphase = .wIdle
  | .idleWait | .ackTx | .hdrWait | .strWait | .confirmTx | .report => s.wphase = .wIdle ∧ s.sphase = .sIdle

/-- `err != None` only at CP_END and CP_REPORT (10_state.md R23). -/
def ErrorConfined (s : State) : Prop := s.err ≠ .none → s.cp = .endRun ∨ s.cp = .report

/-- When the UploadSession is live (10_state.md R46, last sentence). -/
def sessionLive (cp : ControlPoint) (err : ErrKind) : Bool :=
  match cp with
  | .strWait | .write | .confirmTx => true
  | .endRun | .report => err != .truncatedHeader
  | .idleWait | .ackTx | .hdrWait | .beginRun => false

/-- `sess_valid = 1` exactly when the UploadSession is live (10_state.md R46). -/
def SessionFlagRight (s : State) : Prop := s.sess.valid = sessionLive s.cp s.err

/-! ### The lines -/

/-- The levels of `trst_n`, `cs_n`, `loe_n` that the place in the loop calls for (41_session_controller.md R151,
R152, R157, R161). -/
def sessionLevels (cp : ControlPoint) (p : SPhase) (live : Bool) : Level × Level × Level :=
  match cp with
  | .strWait | .write | .confirmTx => (0, 0, 0)
  | .beginRun =>
    match p with
    | .bSettle | .bCs => (0, 1, 1)
    | .bLoe => (0, 0, 1)
    | _ => (1, 1, 1)
  | .endRun =>
    if live then
      match p with
      | .eLoe => (0, 0, 0)
      | .eCs => (0, 0, 1)
      | .eReset => (0, 1, 1)
      | _ => (1, 1, 1)
    else (1, 1, 1)
  | .idleWait | .ackTx | .hdrWait | .report => (1, 1, 1)

/-- The three session lines stand where the loop's place calls for. -/
def SessionLinesRight (s : State) : Prop :=
  (s.lines.trstN, s.lines.csN, s.lines.loeN) = sessionLevels s.cp s.sphase s.sess.valid

/-- The safety order as a state property: whenever the target runs, the block is off the bus
(41_session_controller.md R154). -/
def BusSafe (s : State) : Prop := s.lines.trstN = 1 → s.lines.csN = 1 ∧ s.lines.loeN = 1

/-- Each strobe line is asserted exactly at its hold and release phases, and otherwise rests
(40_bus_sequencer.md R130, R134; 70_reset_and_hazards.md R283). -/
def StrobesRight (s : State) : Prop :=
  (s.lines.leAh = if s.wphase = .ahHold ∨ s.wphase = .ahRelease then assertLevel s else releaseLevel s) ∧
  (s.lines.leAl = if s.wphase = .alHold ∨ s.wphase = .alRelease then assertLevel s else releaseLevel s) ∧
  (s.lines.leD = if s.wphase = .dHold ∨ s.wphase = .dRelease then assertLevel s else releaseLevel s) ∧
  (s.lines.weN = if s.wphase = .weHold ∨ s.wphase = .weHigh then 0 else 1)

/-! ### The write in flight -/

/-- How far the latches hold the request: nothing, AH, AH and AL, all three (40_bus_sequencer.md R127). -/
def latchesLoaded : WPhase → Nat
  | .ahPut | .ahAssert | .ahHold | .ahRelease | .wIdle => 0
  | .alPut | .alAssert | .alHold | .alRelease => 1
  | .dPut | .dAssert | .dHold | .dRelease => 2
  | .weLow | .weHold | .weHigh => 3

/-- The byte the bus must hold at a phase, if it must hold one (40_bus_sequencer.md R130 (b)). -/
def busByte (r : WriteRequest) : WPhase → Option Byte
  | .ahAssert | .ahHold | .ahRelease => some (addrHigh r.addr)
  | .alAssert | .alHold | .alRelease => some (addrLow r.addr)
  | .dAssert | .dHold | .dRelease => some r.data
  | .ahPut | .alPut | .dPut | .weLow | .weHold | .weHigh | .wIdle => none

/-- During a write the request is the session's cursor with a byte that is no end marker, the bus holds the byte of
the latch operation in flight, the latches hold the request as far as it has gone, and the strobe has the RAM
selected (40_bus_sequencer.md R124, R130; 42_upload_protocol.md R186; 20_memory.md R69). -/
def WriteInFlightRight (s : State) : Prop :=
  (s.cp = .write → s.wr.addr = s.sess.cursor ∧ s.wr.data ≠ 0x45) ∧
  (∀ b, busByte s.wr s.wphase = some b → s.lines.bus = b) ∧
  (1 ≤ latchesLoaded s.wphase → s.latches.ah = addrHigh s.wr.addr) ∧
  (2 ≤ latchesLoaded s.wphase → s.latches.al = addrLow s.wr.addr) ∧
  (3 ≤ latchesLoaded s.wphase → s.latches.dl = s.wr.data) ∧
  (s.wphase = .weHold ∨ s.wphase = .weHigh → s.pulseOk = true)

/-! ### The session's counters -/

/-- `cursor` is the start address plus the bytes written (10_state.md R27, R28; 42_upload_protocol.md R202). -/
def CursorCounts (s : State) : Prop :=
  s.sess.valid = true → s.sess.cursor = s.sess.startAddress + s.sess.bytesWritten.setWidth 16

/-! ### What is sent -/

/-- The only bytes the device ever sends are 0x41 and 0x4B (30_encoding.md R91). -/
def RepliesOnly (s : State) : Prop :=
  (∀ b ∈ s.tx, b = 0x41 ∨ b = 0x4B) ∧ (∀ b, OutEvent.tx b ∈ s.trace → b = 0x41 ∨ b = 0x4B)

/-- Everything the control loop keeps true between steps (10_state.md R46 and the rules cited at its parts). -/
structure Consistent (s : State) : Prop where
  control : ControlConsistent s
  error : ErrorConfined s
  flag : SessionFlagRight s
  sessionLines : SessionLinesRight s
  strobes : StrobesRight s
  write : WriteInFlightRight s
  cursor : CursorCounts s
  outputEnable : s.lines.oeN = 1

/-! ### Traces -/

/-- What one event says of the lines (10_state.md R34). -/
def linesAfter (l : BusLines) : OutEvent → BusLines
  | .bus v => { l with bus := v }
  | .set x v => l.drive x v
  | .wait _ | .tx _ | .warn | .result _ => l

/-- BusLineState as a pure function of a trace: each field at the level of the last event for its line, or at its
reset level (10_state.md R34). -/
def linesOfTrace (leActive : Level) (trace : List OutEvent) : BusLines :=
  trace.foldl linesAfter (BusLines.atReset leActive)

/-- The pulse train of `WRITE_BYTE(a, d)`, 15 events (30_encoding.md R102); `on` is the asserting level. -/
def writeTrain (on : Level) (a : Addr) (d : Byte) : List OutEvent :=
  [.bus (a.extractLsb' 8 8), .set .leAh on, .wait .latch, .set .leAh (~~~on),
   .bus (a.extractLsb' 0 8), .set .leAl on, .wait .latch, .set .leAl (~~~on),
   .bus d, .set .leD on, .wait .latch, .set .leD (~~~on),
   .set .weN 0, .wait .we, .set .weN 1]

/-- The train of `BEGIN_SESSION` (41_session_controller.md R151). -/
def beginTrain : List OutEvent := [.set .trstN 0, .wait .settle, .set .csN 0, .set .loeN 0]

/-- The train of `END_SESSION` (41_session_controller.md R152). -/
def endTrain : List OutEvent := [.set .loeN 1, .set .csN 1, .set .trstN 1, .wait .settle]

/-- The trains of a run of data bytes from a cursor on (42_upload_protocol.md R202, R207). -/
def imageTrain (on : Level) (a : Addr) : List Byte → List OutEvent
  | [] => []
  | d :: ds => writeTrain on a d ++ imageTrain on (a + 1) ds

/-- The RAM after a run of data bytes from a cursor on, each to the next address, wrapping (42_upload_protocol.md
R202). -/
def writeImage (m : Memory) (a : Addr) : List Byte → Memory
  | [] => m
  | d :: ds => writeImage (Memory.write m a.toNat d) (a + 1) ds

/-! ### Runs -/

/-- Instructions executed one after the other, stopping at the first that gives no next state. -/
def execSeq : List Instr → State → Answer
  | [], s => .next s
  | i :: is, s =>
    match exec i s with
    | .next t => execSeq is t
    | .fault f => .fault f
    | .refused r => .refused r

/-- The phases `p` to 14 of a write as loop steps (40_bus_sequencer.md R127). -/
def writeStepsFrom (p : Nat) : List Instr :=
  ([0, 1, 2, 3, 4, 5, 6, 7, 8, 9, 10, 11, 12, 13, 14].map Instr.wrStep).drop p

/-- The state `n` steps on (or where the run stopped). -/
abbrev after (n : Nat) (s : State) : Answer := Host.Core.run Sys2Proof.core n s

/-! ### The order of control points -/

/-- The pairs of the whole transition table that change `cp` (42_upload_protocol.md R199). -/
def cpMoves : List (ControlPoint × ControlPoint) :=
  [(.idleWait, .ackTx), (.ackTx, .hdrWait), (.hdrWait, .beginRun), (.hdrWait, .endRun), (.beginRun, .strWait),
   (.strWait, .confirmTx), (.strWait, .endRun), (.strWait, .write)] ++
  [(.write, .strWait), (.write, .endRun), (.confirmTx, .endRun), (.endRun, .report), (.report, .idleWait)]

/-- The CORE has the next step of `s`, and takes it from `u`, the state with the inputs of its turn: the environment's
act says them, and with no act left the inputs stand as they are (log 1). -/
def CoreTurn (s u : State) : Prop :=
  (s.env = [] ∧ u = s) ∨
  ∃ dt ports expire rest, s.env = .core dt ports expire :: rest ∧ u = setInputs dt ports expire { s with env := rest }

/-- The named premise by which a claim may narrow the timeouts to those of a clocked wait timer (93_implementation_defined.md
U15, 60_exceptions.md R259): a pending `Timeout` comes no earlier than the bound after the wait was loaded. -/
def Timely (u : State) : Prop := pendingEvent u = some .timeout → u.timer.loadedAt + waitBound u ≤ u.now

/-- The same state with other wait bounds (00_scope.md R10, 93_implementation_defined.md U16). -/
def withBounds (idlePoll hdr byte : Nat) (s : State) : State :=
  { s with params := { s.params with tIdlePoll := idlePoll, tHdr := hdr, tByte := byte } }

/-- The environment of 42_upload_protocol.md R207 for the CORE's steps: the transmit channel accepts, no fault is
injected, nothing but bytes comes. -/
structure Quiet (s : State) : Prop where
  coreTurn : s.env = []
  txReady : s.ports.txReady = true
  noFault : s.ports.busFault = false
  notClosed : s.ports.rxClosed = false

/-! ### An upload on its course -/

/-- An upload whose course is followed: its operands, the asserting level, and the RAM and the trace (but for warnings)
from which it starts. -/
structure Upload where
  start : Addr
  image : List Byte
  on : Level
  mem : Memory
  trace : List OutEvent

/-- A trace but for the warnings, which any timeout in Streaming adds (42_upload_protocol.md R183). -/
def unwarned (trace : List OutEvent) : List OutEvent := trace.filter (fun e => e != .warn)

/-- The two header bytes, low byte first (30_encoding.md R93). -/
def Upload.header (j : Upload) : List Byte := [j.start.extractLsb' 0 8, j.start.extractLsb' 8 8]

/-- The trace when the bus has been taken and the bytes of `sent` are written (42_upload_protocol.md R207). -/
def Upload.traceOf (j : Upload) (sent : List Byte) : List OutEvent :=
  j.trace ++ [.tx 0x41] ++ beginTrain ++ imageTrain j.on j.start sent

/-- The session has written exactly the bytes of `sent` (42_upload_protocol.md R202). -/
def Written (j : Upload) (sent : List Byte) (s : State) : Prop :=
  s.sess.startAddress = j.start ∧ s.sess.bytesWritten = BitVec.ofNat 32 sent.length ∧
    s.mem = writeImage j.mem j.start sent

/-- An upload on its course, by the place of the loop: `left` is what the CORE has yet to take of the frame
(30_encoding.md section 1; 42_upload_protocol.md R207). -/
def Uploading (j : Upload) (left : List Byte) (s : State) : Prop :=
  s.err = .none ∧ s.params.leActive = j.on ∧
  match s.cp with
  | .idleWait => left = 0x55 :: j.header ++ j.image ++ [0x45] ∧ s.mem = j.mem ∧ unwarned s.trace = j.trace
  | .ackTx => left = j.header ++ j.image ++ [0x45] ∧ s.mem = j.mem ∧ unwarned s.trace = j.trace
  | .hdrWait =>
    (if s.hdrCnt = 0 then left = j.header ++ j.image ++ [0x45]
      else left = j.start.extractLsb' 8 8 :: j.image ++ [0x45] ∧ s.hdrLo = j.start.extractLsb' 0 8) ∧
    s.mem = j.mem ∧ unwarned s.trace = j.trace ++ [.tx 0x41]
  | .beginRun =>
    left = j.image ++ [0x45] ∧ s.mem = j.mem ∧ s.sess.startAddress = j.start ∧
    unwarned s.trace = j.trace ++ [.tx 0x41] ++ beginTrain.take s.sphase.code.toNat
  | .strWait =>
    ∃ sent rest, j.image = sent ++ rest ∧ left = rest ++ [0x45] ∧ Written j sent s ∧
      unwarned s.trace = j.traceOf sent
  | .write =>
    ∃ sent rest, j.image = sent ++ s.wr.data :: rest ∧ left = rest ++ [0x45] ∧ Written j sent s ∧
      unwarned s.trace = j.traceOf sent ++ (writeTrain j.on s.wr.addr s.wr.data).take s.wphase.code.toNat
  | .confirmTx => left = [] ∧ Written j j.image s ∧ unwarned s.trace = j.traceOf j.image
  | .endRun =>
    left = [] ∧ Written j j.image s ∧
    unwarned s.trace = j.traceOf j.image ++ [.tx 0x4B] ++ endTrain.take (s.sphase.code.toNat - 4)
  | .report => left = [] ∧ Written j j.image s ∧ unwarned s.trace = j.traceOf j.image ++ [.tx 0x4B] ++ endTrain

/-- The upload has ended with success: the record, the trace, the RAM, and every line but the bus at rest
(42_upload_protocol.md R207). -/
def Uploaded (j : Upload) (s : State) : Prop :=
  s.cp = .idleWait ∧ s.res.status = 0 ∧ s.res.kind = .none ∧ s.res.bytes = BitVec.ofNat 32 j.image.length ∧
  s.res.start = j.start ∧ s.mem = writeImage j.mem j.start j.image ∧
  unwarned s.trace = j.traceOf j.image ++ [.tx 0x4B] ++ endTrain ++ [.result s.res] ∧
  s.lines = { BusLines.atReset j.on with bus := s.lines.bus }

/-- The environment of 42_upload_protocol.md R207, act by act: no reset, no fault, the bytes that the CORE takes are
those of the frame, no timeout in the header and no closed stream in Streaming. Everything else may happen. -/
def Undisturbed (left : List Byte) (s : State) : Prop :=
  s.env.head? ≠ some .reset ∧
  ∀ u, CoreTurn s u → u.ports.busFault = false ∧
    ∀ e, u.cp.isWait = true → pendingEvent u = some e →
      match e with
      | .byte b => left.head? = some b
      | .timeout => u.cp ≠ .hdrWait
      | .closed => u.cp ≠ .strWait

end Sys2Proof.Safety
end

