-- ==== Sys2Proof/Certificates/Slice0/Obligations.lean ====
section
/-! DEFINITION. The statements for the provers. A record update in a conclusion names everything that changes: every
other register, line, latch, cell of the RAM and channel is as before. -/

open Sys2Proof Sys2Proof.Machine Sys2Proof.Safety

/-! ### Encoding -/

/-- 30_encoding.md, sections 2 to 4: no operand bit is dropped. The tag that tells operation rows from loop rows is
the model's own (log 12). -/
def Obligations.DecodeEncodeAgree : Prop :=
  ∀ i : Instr, i.wellFormed = true → decode (encode i) = .ok i

/-- 30_encoding.md, sections 2 and 4: what the decoder gives is well-formed, whatever the word. -/
def Obligations.DecodedIsWellFormed : Prop :=
  ∀ (w : CodeWord) (i : Instr), decode w = .ok i → i.wellFormed = true

/-- 30_encoding.md, section 2: an event word decodes exactly at the three wait points and for the three kinds, to a row
of the transcribed table that fits it and that no fitting row precedes. -/
def Obligations.EventDecodingFollowsTheTable : Prop :=
  ∀ (cp : ControlPoint) (h : BitVec 1) (ev : BitVec 10),
    ((∃ i, decode (.event cp h ev) = .ok i) ↔ (cp.isWait = true ∧ eventKind ev ≠ 3)) ∧
    ∀ i, decode (.event cp h ev) = .ok i →
      i.row ∈ table ∧ i.row.fits (.event cp h ev) = true ∧
      ∀ k ∈ table, k.fits (.event cp h ev) = true → k = i.row ∨ i.row.priority < k.priority

/-- 30_encoding.md, section 4: a control word decodes within a group of rows exactly when a row of the transcribed table
fits it, and to that row. The groups are the model's own (log 12). -/
def Obligations.ControlDecodingFollowsTheTable : Prop :=
  ∀ (g : RowGroup) (cw : BitVec 9) (k : RowKey), k ∈ table →
    (k.fits (.control g cw) = true ↔ ∃ i, decode (.control g cw) = .ok i ∧ i.row = k)

/-- A few words of 30_encoding.md (R98, R107) and of the vectors V1, bit by bit. -/
def Obligations.SampleWordsDecode : Prop :=
  decode (.event .idleWait 0 0b0001010101) = .ok .idleStart ∧
  decode (.event .strWait 0 0b0001000101) = .ok .strEnd ∧
  decode (.event .hdrWait 1 0b0001000101) = .ok (.hdrHi 0x45) ∧
  decode (.event .strWait 1 0b0001010101) = .ok (.strData 0x55) ∧
  decode (.event .hdrWait 0 0b0100000000) = .ok .hdrTmo ∧
  decode (.control .part 0b010101100) = .ok (.latchAl 2) ∧
  decode (.control .ret 0b010111101) = .ok .wrErr ∧
  decode (.control .loop 0b011101110) = .ok (.finEnd 3) ∧
  decode (.host [0x55, 0x00, 0x10, 0x00, 0xFF, 0x42, 0x45]) = .ok (.hUpload 0x1000 [0x00, 0xFF, 0x42])

/-! ### The step -/

/-- 42_upload_protocol.md, section 1 and 30_encoding.md, sections 2 and 4: a step of the CORE runs the row its state
decodes to, after the status pulses of the step before have ended and the event has been taken; with no event pending
at a wait point it waits. A step of the host runs H.UPLOAD with the operands of its run. Whose turn it is, and the
inputs of the turn, are the environment's acts (logs 1, 7, 8, 15). -/
def Obligations.StepRunsTheDecodedRow : Prop :=
  (∀ s u : State, CoreTurn s u →
    (u.cp.isWait = true → pendingEvent u = none → step s = .next (clearPulses u)) ∧
    (∀ e i, u.cp.isWait = true → pendingEvent u = some e →
      decode (.event u.cp u.hdrCnt (eventWord e)) = .ok i → step s = exec i (takeEvent e (clearPulses u))) ∧
    ∀ i, u.cp.isWait = false → decode (.control .loop (controlWord u)) = .ok i → step s = exec i (clearPulses u)) ∧
  (∀ (s : State) linkError rest, s.env = .host linkError :: rest → s.host.phase ≠ .idle →
    step s = exec (.hUpload s.host.start s.host.image)
      { s with env := rest, host := { s.host with linkError := linkError } }) ∧
  ∀ (s : State) start image linkError rest, s.env = .upload start image linkError :: rest →
    step s = exec (.hUpload start image)
      { s with env := rest, host := { s.host with phase := .idle, linkError := linkError } }

/-- 43_host_uploader.md (R226, "What the host can never do") as the model's acts (logs 1, 13): a byte sent, a reply
dropped, a host step or a new upload reaches nothing but the two channels and the host's own run. -/
def Obligations.HostReachesOnlyTheChannels : Prop :=
  ∀ (s : State) (a : EnvAct) (rest : List EnvAct), s.env = a :: rest →
    ((∃ b, a = .send b) ∨ a = .drain ∨ (∃ e, a = .host e) ∨ ∃ x im e, a = .upload x im e) →
    ∃ t, step s = .next t ∧ t = { s with rx := t.rx, tx := t.tx, host := t.host, env := rest } ∧
      (∃ sent, t.rx = s.rx ++ sent) ∧ ∃ read, s.tx = read ++ t.tx

/-! ### Idle -/

/-- 42_upload_protocol.md R172: IDLE.START, its word, its effect, and that no other event leaves Idle. -/
def Obligations.StartMarkerAloneLeavesIdle : Prop :=
  (∀ h, decode (.event .idleWait h 0x055) = .ok .idleStart) ∧
  (∀ s : State, s.cp = .idleWait → exec .idleStart s = .next { s with cp := .ackTx }) ∧
  ∀ s : State, s.env = [] → s.cp = .idleWait →
    ((∃ t, step s = .next t ∧ t.cp ≠ .idleWait) ↔ s.rx.head? = some 0x55)

/-- 42_upload_protocol.md, section 2, the rows IDLE.SKIP, IDLE.TMO and IDLE.CLOSED (decisions D11, D12, D32): nothing
changes; a timeout starts the wait again (log 8). -/
def Obligations.IdleRowsChangeNothing : Prop :=
  ∀ s : State, s.cp = .idleWait →
    (∀ b, b ≠ 0x55 → exec (.idleSkip b) s = .next s) ∧
    exec .idleTmo s = .next { s with timer := { loadedAt := s.now, expired := false } } ∧
    exec .idleClosed s = .next s

/-- 42_upload_protocol.md, sections 2 and 8, the row ACK (decisions D23, D35): it sends 0x41 when the transmit channel
accepts, which starts the header timer (its form is log 8), and waits otherwise. -/
def Obligations.AckIsSentWhenAccepted : Prop :=
  ∀ s : State, s.cp = .ackTx →
    (s.ports.txReady = true → exec .ack s = .next { s with
      trace := s.trace ++ [.tx 0x41]
      tx := s.tx ++ [0x41]
      hdrCnt := 0
      timer := { loadedAt := s.now, expired := false }
      cp := .hdrWait }) ∧
    (s.ports.txReady = false → exec .ack s = .next s)

/-! ### The header -/

/-- 42_upload_protocol.md R177 and R178: the two header bytes, any values; the first is the low byte
of the start address, the second the high byte. -/
def Obligations.HeaderBytesAreTaken : Prop :=
  (∀ (s : State) (b : Byte), s.cp = .hdrWait →
    (s.hdrCnt = 0 → decode (.event .hdrWait s.hdrCnt ((0 : BitVec 2) ++ b)) = .ok (.hdrLo b) ∧
      exec (.hdrLo b) s = .next { s with hdrLo := b, hdrCnt := 1 }) ∧
    (s.hdrCnt = 1 → decode (.event .hdrWait s.hdrCnt ((0 : BitVec 2) ++ b)) = .ok (.hdrHi b) ∧
      exec (.hdrHi b) s = .next { s with
        sess := { s.sess with startAddress := b ++ s.hdrLo }
        hdrCnt := 0
        sphase := .bReset
        cp := .beginRun })) ∧
  ∀ (s : State) (first second : Byte), s.cp = .hdrWait → s.hdrCnt = 0 →
    ∃ t, execSeq [.hdrLo first, .hdrHi second] s = .next t ∧ t.cp = .beginRun ∧
      t.sess.startAddress.toNat = first.toNat + 256 * second.toNat

/-- 42_upload_protocol.md, section 3, the rows HDR.TMO and HDR.CLOSED (decision D12), and the entry into
failure of 60_exceptions.md, section 4. -/
def Obligations.HeaderTimeoutFails : Prop :=
  ∀ s : State, s.cp = .hdrWait →
    exec .hdrTmo s = .next { s with
      err := .truncatedHeader, tEnd := BitVec.ofNat 64 s.now, sphase := .eLoe, cp := .endRun } ∧
    exec .hdrClosed s = .next s

/-- 42_upload_protocol.md, sections 3 and 8, and test vector X9: a header that times out disturbs no line, sends
nothing, reports the failure with zeros (decision D17) six steps on, and the next start marker is accepted. -/
def Obligations.TruncatedHeaderRecovers : Prop :=
  ∀ s : State, Consistent s → s.env = [] → s.cp = .hdrWait → pendingEvent s = some .timeout →
    ∃ t, after 6 s = .next t ∧ t.cp = .idleWait ∧ t.lines = s.lines ∧ t.tx = s.tx ∧ t.mem = s.mem ∧ t.err = .none ∧
      t.res = { status := 1, kind := .truncatedHeader, bytes := 0, start := 0, elapsed := 0 } ∧
      t.trace = s.trace ++ endTrain ++ [.result t.res] ∧
      ∃ u, step { t with rx := [0x55] } = .next u ∧ u.cp = .ackTx

/-! ### Streaming -/

/-- 42_upload_protocol.md, section 4, the row STR.TMO (decisions D25, D29): a warning, and the wait starts again (the
timer's form is log 8). -/
def Obligations.StreamingTimeoutOnlyWarns : Prop :=
  ∀ s : State, s.cp = .strWait → exec .strTmo s = .next { s with
    trace := s.trace ++ [.warn]
    warnTimeout := true
    timer := { loadedAt := s.now, expired := false } }

/-- 42_upload_protocol.md R184: STR.END, its word and its effect; the byte is neither written nor counted, and a session
of no bytes ends the same way. -/
def Obligations.EndMarkerGoesToConfirm : Prop :=
  (∀ h, decode (.event .strWait h 0x045) = .ok .strEnd) ∧
  (∀ s : State, s.cp = .strWait → exec .strEnd s = .next { s with cp := .confirmTx }) ∧
  ∀ (s : State) (rest : List Byte), Consistent s → Quiet s → s.cp = .strWait → s.rx = 0x45 :: rest →
    ∃ t, after 7 s = .next t ∧ t.cp = .idleWait ∧ t.res.status = 0 ∧ t.res.kind = .none ∧
      t.res.bytes = s.sess.bytesWritten ∧ t.res.start = s.sess.startAddress ∧ t.mem = s.mem ∧
      t.tx = s.tx ++ [0x4B] ∧ t.rx = rest

/-- 42_upload_protocol.md R185: STR.CLOSED; no 0x4B is sent, the RAM stays, and the result reports no bytes. -/
def Obligations.StreamClosedFailsTheSession : Prop :=
  (∀ h, decode (.event .strWait h 0x200) = .ok .strClosed) ∧
  (∀ s : State, s.cp = .strWait → exec .strClosed s = .next { s with
    err := .streamClosed, tEnd := BitVec.ofNat 64 s.now, sphase := .eLoe, cp := .endRun }) ∧
  ∀ s : State, Consistent s → s.env = [] → s.cp = .strWait → pendingEvent s = some .closed →
    ∃ t, after 6 s = .next t ∧ t.cp = .idleWait ∧ t.tx = s.tx ∧ t.mem = s.mem ∧
      t.res.status = 1 ∧ t.res.kind = .streamClosed ∧ t.res.bytes = 0 ∧ t.res.start = s.sess.startAddress

/-- 42_upload_protocol.md R186: STR.DATA, its words and its effect. -/
def Obligations.DataByteStartsAWrite : Prop :=
  ∀ (s : State) (b : Byte), b ≠ 0x45 →
    (∀ h, decode (.event .strWait h ((0 : BitVec 2) ++ b)) = .ok (.strData b)) ∧
    (s.cp = .strWait → exec (.strData b) s = .next { s with
      wr := { addr := s.sess.cursor, data := b }, wphase := .ahPut, cp := .write })

/-- 42_upload_protocol.md, section 4, the row WR.OK, and 30_encoding.md, section 4, its word, which is read in the group of
the returns (log 12): `cursor` and `bytes_written` go up by one, the cursor wraps in silence. The loop's last write step is
the write's last phase, which is WRITE_BYTE from phase 14 (log 10), and then this row, when the write returns `Ok`. The
wait timer, which the CORE loads on this entry to CP_STR_WAIT, is left open here (log 8). -/
def Obligations.AcceptedWriteCounts : Prop :=
  decode (.control .ret 0b010111100) = .ok .wrOk ∧
  (∀ s : State, s.cp = .write →
    ∃ t, exec .wrOk s = .next t ∧
      t = { s with
        sess := { s.sess with cursor := s.sess.cursor + 1, bytesWritten := s.sess.bytesWritten + 1 }
        wphase := .wIdle
        cp := .strWait
        timer := t.timer } ∧
      t.sess.cursor.toNat = (s.sess.cursor.toNat + 1) % 65536) ∧
  ∀ s : State, s.cp = .write → s.wphase = .weHigh → s.ports.busFault = false →
    exec (.wrStep 14) s = execSeq [.writeByte 14, .wrOk] s

/-- 42_upload_protocol.md, section 4, the row WR.ERR (decision D13): the session fails with BusError and nothing is
counted. -/
def Obligations.FaultedWriteFailsTheSession : Prop :=
  ∀ s : State, s.cp = .write → exec .wrErr s = .next { s with
    wphase := .wIdle, err := .busError, tEnd := BitVec.ofNat 64 s.now, sphase := .eLoe, cp := .endRun }

/-- 42_upload_protocol.md, sections 4 and 8, the row CONFIRM (decision D23): it sends 0x4B when the transmit channel
accepts and waits otherwise; `err` stays, so the session is `Done`. -/
def Obligations.ConfirmIsSentWhenAccepted : Prop :=
  ∀ s : State, s.cp = .confirmTx →
    (s.ports.txReady = true → exec .confirm s = .next { s with
      trace := s.trace ++ [.tx 0x4B]
      tx := s.tx ++ [0x4B]
      tEnd := BitVec.ofNat 64 s.now
      sphase := .eLoe
      cp := .endRun }) ∧
    (s.ports.txReady = false → exec .confirm s = .next s)

/-! ### The report, and failures -/

/-- 42_upload_protocol.md, section 5, the row FIN.REPORT (decisions D17, D21, D34): the record, the destruction of the
session, the return to Idle. Section 5 says nothing of the wait timer: that this entry to CP_IDLE_WAIT loads it is
60_exceptions.md, section 6 (R259), and that a load writes down the time and clears the expiry is the model's choice
(log 8). -/
def Obligations.ReportEndsTheSession : Prop :=
  ∀ s : State, s.cp = .report →
    ∃ t, exec .finReport s = .next t ∧
      t = { s with
        res := t.res
        resValid := true
        trace := s.trace ++ [.result t.res]
        sess := { valid := false, startAddress := 0, cursor := 0, bytesWritten := 0, startedAt := 0 }
        err := .none
        cp := .idleWait
        timer := { loadedAt := s.now, expired := false } } ∧
      (s.err = .none → t.res.status = 0 ∧ t.res.bytes = s.sess.bytesWritten) ∧
      (s.err ≠ .none → t.res.status = 1 ∧ t.res.bytes = 0) ∧
      t.res.kind = s.err ∧
      (s.sess.valid = true → t.res.start = s.sess.startAddress ∧ t.res.elapsed = s.tEnd - s.sess.startedAt) ∧
      (s.sess.valid = false → t.res.start = 0 ∧ t.res.elapsed = 0)

/-- 42_upload_protocol.md R194: a failed session reports no bytes whatever it wrote. At the entry into failure, whatever the
cause, the count stands and the RAM keeps every cell but the one a faulted write has just stored to; through the
clean-up and up to the report nothing but the block's reset touches either; the report leaves the RAM. -/
def Obligations.FailureReportsNoBytes : Prop :=
  (∀ s : State, s.cp = .report → s.err ≠ .none →
    ∃ t, exec .finReport s = .next t ∧ t.res.status = 1 ∧ t.res.bytes = 0 ∧ t.mem = s.mem) ∧
  (∀ s t : State, step s = .next t → s.err = .none → t.err ≠ .none →
    t.sess.bytesWritten = s.sess.bytesWritten ∧ (s.cp ≠ .write → t.mem = s.mem) ∧
    ∀ a, a ≠ latchAddress s.latches → ramAt t a = ramAt s a) ∧
  ∀ s t : State, step s = .next t → s.env.head? ≠ some .reset →
    (s.cp = .endRun ∨ s.cp = .strWait → t.sess.bytesWritten = s.sess.bytesWritten ∧ t.mem = s.mem) ∧
    (s.cp = .report → t.mem = s.mem ∧ (t.cp = .report → t.sess.bytesWritten = s.sess.bytesWritten))

/-- 60_exceptions.md R252: the one entry into failure: what it writes, that it moves nothing else, that it is the only
way into `Failed` (from a state with no error set, which 10_state.md R23 gives away from the clean-up), and that the
session registers and what it wrote stay through the clean-up, up to the report. -/
def Obligations.FailureEntry : Prop :=
  (∀ (k : ErrKind) (s : State), k ≠ .none →
    raiseFailed k s = { s with err := k, tEnd := BitVec.ofNat 64 s.now, sphase := .eLoe, cp := .endRun } ∧
    fsm (raiseFailed k s) = .failed) ∧
  (∀ s t : State, step s = .next t → s.err = .none → fsm t = .failed →
    ∃ k u, k ≠ .none ∧ t = raiseFailed k u ∧ u.sess = s.sess ∧ u.tx = s.tx) ∧
  ∀ s t : State, step s = .next t → s.cp = .endRun → s.env.head? ≠ some .reset →
    t.sess = s.sess ∧ t.err = s.err ∧ t.tEnd = s.tEnd

/-- 60_exceptions.md, section 1: the three causes of failure and no others: the expired wait for the header, the closed
stream in Streaming, the fault input at the end of a write. `u` is the state with the inputs of the CORE's turn. -/
def Obligations.OnlyThreeCausesOfFailure : Prop :=
  ∀ s t : State, step s = .next t → s.err = .none → t.err ≠ .none →
    ∃ u, CoreTurn s u ∧
      ((t.err = .truncatedHeader ∧ s.cp = .hdrWait ∧ s.rx = [] ∧ pendingEvent u = some .timeout) ∨
       (t.err = .streamClosed ∧ s.cp = .strWait ∧ s.rx = [] ∧ pendingEvent u = some .closed) ∨
       (t.err = .busError ∧ s.cp = .write ∧ s.wphase = .weHigh ∧ u.ports.busFault = true))

/-! ### The session controller -/

/-- 42_upload_protocol.md R181: from the first phase of SESSION.BEGIN, four steps run BEGIN_SESSION and initialise the
UploadSession. How long the status pulses stand and when the wait timer is loaded are left open here (logs 8, 15). -/
def Obligations.SessionBeginsInFourSteps : Prop :=
  ∀ s : State, s.env = [] → s.cp = .beginRun → s.sphase = .bReset →
    ∃ t, after 4 s = .next t ∧
      t = { s with
        lines := { s.lines with trstN := 0, csN := 0, loeN := 0 }
        trace := s.trace ++ [.set .trstN 0, .wait .settle, .set .csN 0, .set .loeN 0]
        now := t.now
        sphase := .sIdle
        sess := { s.sess with
          cursor := s.sess.startAddress, bytesWritten := 0, startedAt := BitVec.ofNat 64 t.now, valid := true }
        cp := .strWait
        warnTimeout := t.warnTimeout
        resValid := t.resValid
        timer := t.timer }

/-- 41_session_controller.md, sections 2 to 4, and 42_upload_protocol.md, sections 3 and 5: the phases of SESSION.BEGIN
and FIN.END as single loop steps, one phase each (log 10; the phase numbers are the spec's decision D18). A guard adds
exactly its least time in its own step (log 18), the wait timer is loaded on entry to CP_STR_WAIT (log 8), and `pulseOk`,
cleared where `loe_n` and `cs_n` rise, is the model's own bit (log 14). -/
def Obligations.SessionPhases : Prop :=
  ∀ s : State,
    (s.cp = .beginRun →
      exec (.sessionBegin 0) s = .next { s with
        lines := { s.lines with trstN := 0 }, trace := s.trace ++ [.set .trstN 0], sphase := .bSettle } ∧
      exec (.sessionBegin 1) s = .next { s with
        now := s.now + s.params.tSettle, trace := s.trace ++ [.wait .settle], sphase := .bCs } ∧
      exec (.sessionBegin 2) s = .next { s with
        lines := { s.lines with csN := 0 }, trace := s.trace ++ [.set .csN 0], sphase := .bLoe } ∧
      exec (.sessionBegin 3) s = .next { s with
        lines := { s.lines with loeN := 0 }
        trace := s.trace ++ [.set .loeN 0]
        sphase := .sIdle
        sess := { s.sess with
          cursor := s.sess.startAddress, bytesWritten := 0, startedAt := BitVec.ofNat 64 s.now, valid := true }
        timer := { loadedAt := s.now, expired := false }
        cp := .strWait }) ∧
    (s.cp = .endRun →
      exec (.finEnd 0) s = .next { s with
        lines := { s.lines with loeN := 1 }
        trace := s.trace ++ [.set .loeN 1]
        pulseOk := false
        sphase := .eCs } ∧
      exec (.finEnd 1) s = .next { s with
        lines := { s.lines with csN := 1 }
        trace := s.trace ++ [.set .csN 1]
        pulseOk := false
        sphase := .eReset } ∧
      exec (.finEnd 2) s = .next { s with
        lines := { s.lines with trstN := 1 }, trace := s.trace ++ [.set .trstN 1], sphase := .eSettle } ∧
      exec (.finEnd 3) s = .next { s with
        now := s.now + s.params.tSettle
        trace := s.trace ++ [.wait .settle]
        sphase := .sIdle
        cp := .report })

/-- 42_upload_protocol.md R192: after phase 7 of END_SESSION the loop goes to CP_REPORT, nothing else changes, and there
is no other way out of CP_END but the block's reset. -/
def Obligations.EndSessionLeadsToTheReport : Prop :=
  (∀ s : State, s.cp = .endRun →
    ∃ t, exec (.finEnd 3) s = .next t ∧ t.cp = .report ∧ t.sphase = .sIdle ∧
      t = { s with now := t.now, trace := s.trace ++ [.wait .settle], sphase := .sIdle, cp := .report }) ∧
  ∀ s t : State, s.cp = .endRun → s.env.head? ≠ some .reset → step s = .next t → t.cp ≠ .endRun →
    t.cp = .report ∧ s.sphase = .eSettle

/-- 41_session_controller.md, section 2, BEGIN_SESSION (decision D27): the lines, the train and the settle delay, which
lasts its least time here (log 18); from a later phase (log 10) the rest of the train. -/
def Obligations.BeginSessionTakesTheBus : Prop :=
  ∀ (s : State) (p : BitVec 2),
    ∃ t, exec (.beginSession p) s = .next t ∧
      t = { s with
        lines := { s.lines with
          trstN := (if p = 0 then 0 else s.lines.trstN)
          csN := (if p = 3 then s.lines.csN else 0)
          loeN := 0 }
        trace := s.trace ++ beginTrain.drop p.toNat
        now := s.now + (if p = 0 ∨ p = 1 then s.params.tSettle else 0)
        sphase := .sIdle }

/-- 41_session_controller.md, section 3, END_SESSION (decision D27), with or without a session begun; the settle delay
lasts its least time here (log 18); from a later phase (log 10) the rest of the train. `pulseOk`, cleared where `loe_n` or
`cs_n` rises, is the model's own bit (log 14). -/
def Obligations.EndSessionGivesTheBusBack : Prop :=
  ∀ (s : State) (p : BitVec 2),
    ∃ t, exec (.endSession p) s = .next t ∧
      t = { s with
        lines := { s.lines with
          loeN := (if p = 0 then 1 else s.lines.loeN)
          csN := (if p = 0 ∨ p = 1 then 1 else s.lines.csN)
          trstN := (if p = 3 then s.lines.trstN else 1) }
        trace := s.trace ++ endTrain.drop p.toNat
        pulseOk := (if p = 0 ∨ p = 1 then false else s.pulseOk)
        now := s.now + s.params.tSettle
        sphase := .sIdle }

/-- 41_session_controller.md R156: BEGIN_SESSION and END_SESSION back to back restore BusLineState. -/
def Obligations.BracketRestoresTheLines : Prop :=
  ∀ s : State, s.lines.trstN = 1 → s.lines.csN = 1 → s.lines.loeN = 1 →
    ∃ t, execSeq [.beginSession 0, .endSession 0] s = .next t ∧ t.lines = s.lines ∧
      t.trace = s.trace ++ beginTrain ++ endTrain

/-- 41_session_controller.md R160: the session controller moves no bus or strobe line, no latch captures, the RAM is
not written, and in a consistent state the four strobe lines rest de-asserted while it runs. -/
def Obligations.SessionControllerLeavesTheStrobes : Prop :=
  (∀ (s : State) (p : BitVec 2) (i : Instr),
    i = .sessionBegin p ∨ i = .beginSession p ∨ i = .finEnd p ∨ i = .endSession p →
    ∃ t, exec i s = .next t ∧ t.mem = s.mem ∧ t.latches = s.latches ∧
      t.lines = { s.lines with trstN := t.lines.trstN, csN := t.lines.csN, loeN := t.lines.loeN }) ∧
  ∀ s : State, Consistent s → s.cp = .beginRun ∨ s.cp = .endRun →
    s.lines.leAh = ~~~s.params.leActive ∧ s.lines.leAl = ~~~s.params.leActive ∧
    s.lines.leD = ~~~s.params.leActive ∧ s.lines.weN = 1

/-! ### The Bus Sequencer -/

/-- 40_bus_sequencer.md R122, R123, R124: LATCH_AH, LATCH_AL and LATCH_D, each in full: its four events, the guard kept,
the enable line back at rest, the byte on the bus and in the one latch, and nothing else changed. Where `wphase` stands
after the operation alone is left open here (log 10). -/
def Obligations.LatchOperationsLoadTheirLatch : Prop :=
  ∀ s : State,
    (∃ t, exec (.latchAh 0) s = .next t ∧ t = { s with
      lines := { s.lines with bus := s.wr.addr.extractLsb' 8 8, leAh := ~~~s.params.leActive }
      latches := { s.latches with ah := s.wr.addr.extractLsb' 8 8 }
      trace := s.trace ++ (writeTrain s.params.leActive s.wr.addr s.wr.data).take 4
      now := t.now
      wphase := t.wphase } ∧ s.now + s.params.tLatch ≤ t.now) ∧
    (∃ t, exec (.latchAl 0) s = .next t ∧ t = { s with
      lines := { s.lines with bus := s.wr.addr.extractLsb' 0 8, leAl := ~~~s.params.leActive }
      latches := { s.latches with al := s.wr.addr.extractLsb' 0 8 }
      trace := s.trace ++ ((writeTrain s.params.leActive s.wr.addr s.wr.data).drop 4).take 4
      now := t.now
      wphase := t.wphase } ∧ s.now + s.params.tLatch ≤ t.now) ∧
    ∃ t, exec (.latchD 0) s = .next t ∧ t = { s with
      lines := { s.lines with bus := s.wr.data, leD := ~~~s.params.leActive }
      latches := { s.latches with dl := s.wr.data }
      trace := s.trace ++ ((writeTrain s.params.leActive s.wr.addr s.wr.data).drop 8).take 4
      now := t.now
      wphase := t.wphase } ∧ s.now + s.params.tLatch ≤ t.now

/-- 40_bus_sequencer.md, sections 2 and 4 (log 10): a latch operation from any of its phases is the loop steps of those
phases, one after the other. -/
def Obligations.LatchOperationsAreTheirSteps : Prop :=
  ∀ (s : State) (p : BitVec 2),
    exec (.latchAh p) s = execSeq ((writeStepsFrom p.toNat).take (4 - p.toNat)) s ∧
    exec (.latchAl p) s = execSeq ((writeStepsFrom (4 + p.toNat)).take (4 - p.toNat)) s ∧
    exec (.latchD p) s = execSeq ((writeStepsFrom (8 + p.toNat)).take (4 - p.toNat)) s

/-- 40_bus_sequencer.md, section 3 and 20_memory.md, section 3 (decision D28, log 14), WE_PULSE from any of its phases
(that a later phase runs to the end is log 10): the events, the frame, and for the whole pulse the cell it writes:
`{AH, AL}` gets `DL` when the RAM is selected, no cell otherwise. Whether a pulse begun earlier stores is left open here.
The guard lasts its least time (log 18). A latch never loaded counts with its free byte (log 25). -/
def Obligations.StrobeWritesTheLatchedCell : Prop :=
  ∀ (s : State) (p : BitVec 2), p ≠ 3 →
    ∃ t, exec (.wePulse p) s = .next t ∧
      t = { s with
        lines := { s.lines with weN := 1 }
        trace := s.trace ++ [OutEvent.set .weN 0, .wait .we, .set .weN 1].drop p.toNat
        now := s.now + (if p = 2 then 0 else s.params.tWe)
        pulseOk := t.pulseOk
        mem := t.mem
        wphase := .wIdle } ∧
      (∀ a, a ≠ latchAddress s.latches → ramAt t a = ramAt s a) ∧
      (s.lines.csN ≠ 0 ∨ s.lines.loeN ≠ 0 → t.mem = s.mem) ∧
      (p = 0 → s.lines.weN = 1 → s.lines.csN = 0 → s.lines.loeN = 0 →
        ramAt t (latchAddress s.latches) = some s.latches.dl)

/-- 40_bus_sequencer.md, section 4 and 20_memory.md, sections 3 and 4, WRITE_BYTE in full: the pulse train, the latches,
the frame, the returned result (the field is the model's, log 11); in a begun session `RAM[wr_addr] <- wr_data` and no
other cell changes, outside one the RAM is unchanged (decision D31). The guards last their least time here (log 18). -/
def Obligations.WriteByteWritesOneCell : Prop :=
  ∀ s : State, s.lines.weN = 1 →
    ∃ t, exec (.writeByte 0) s = .next t ∧
      t = { s with
        lines := { s.lines with
          bus := s.wr.data
          leAh := ~~~s.params.leActive
          leAl := ~~~s.params.leActive
          leD := ~~~s.params.leActive }
        trace := s.trace ++ writeTrain s.params.leActive s.wr.addr s.wr.data
        latches := { ah := s.wr.addr.extractLsb' 8 8, al := s.wr.addr.extractLsb' 0 8, dl := s.wr.data }
        now := s.now + (3 * s.params.tLatch + s.params.tWe)
        pulseOk := t.pulseOk
        mem := t.mem
        wphase := .wIdle
        wrRet := (if s.ports.busFault then .busError else .ok) } ∧
      (s.lines.csN = 0 → s.lines.loeN = 0 →
        ∀ a, ramAt t a = if a = s.wr.addr then some s.wr.data else ramAt s a) ∧
      (s.lines.csN ≠ 0 ∨ s.lines.loeN ≠ 0 → t.mem = s.mem)

/-- 40_bus_sequencer.md R133 and R137: after a write the shadow holds the last byte placed and the strobe lines at rest,
and the request stays as it was; in whatever phase, with a session begun or not, the Bus Sequencer never drives
`cs_n`, `oe_n`, `trst_n` or `loe_n`. -/
def Obligations.SequencerDrivesItsOwnLines : Prop :=
  (∀ s : State,
    ∃ t, exec (.writeByte 0) s = .next t ∧ t.lines.bus = s.wr.data ∧ t.lines.leAh = ~~~s.params.leActive ∧
      t.lines.leAl = ~~~s.params.leActive ∧ t.lines.leD = ~~~s.params.leActive ∧ t.lines.weN = 1 ∧ t.wr = s.wr) ∧
  ∀ (s : State) (i : Instr),
    (∃ p, i = .wrStep p ∨ i = .writeByte p) ∨
      (∃ p, i = .latchAh p ∨ i = .latchAl p ∨ i = .latchD p ∨ i = .wePulse p) →
    ∃ t, exec i s = .next t ∧ t.lines.csN = s.lines.csN ∧ t.lines.oeN = s.lines.oeN ∧
      t.lines.trstN = s.lines.trstN ∧ t.lines.loeN = s.lines.loeN

/-- 40_bus_sequencer.md, sections 4 and 5 (the phase numbers are decision D18), and 20_memory.md, section 3 (decision
D6): WR.STEP before the last phase performs one event of the pulse train and advances `wphase`; a guard lasts its least time
(log 18); a latch captures the bus when its enable falls from asserted, and nothing else of the machine moves. -/
def Obligations.WriteStepFollowsTheTrain : Prop :=
  ∀ (s : State) (p : BitVec 4), s.cp = .write → s.wphase.code = p → p ≠ 14 → p ≠ 15 →
    ∃ t e, exec (.wrStep p) s = .next t ∧ (writeTrain s.params.leActive s.wr.addr s.wr.data)[p.toNat]? = some e ∧
      t = { s with
        lines := linesAfter s.lines e
        trace := s.trace ++ [e]
        latches := t.latches
        pulseOk := t.pulseOk
        now := s.now +
          (if p = 2 ∨ p = 6 ∨ p = 10 then s.params.tLatch else if p = 13 then s.params.tWe else 0)
        wphase := t.wphase } ∧
      t.wphase.code = p + 1 ∧
      t.latches.ah = (if p = 3 ∧ s.lines.leAh = s.params.leActive then s.lines.bus else s.latches.ah) ∧
      t.latches.al = (if p = 7 ∧ s.lines.leAl = s.params.leActive then s.lines.bus else s.latches.al) ∧
      t.latches.dl = (if p = 11 ∧ s.lines.leD = s.params.leActive then s.lines.bus else s.latches.dl)

/-- 40_bus_sequencer.md, section 6, and 42_upload_protocol.md, section 4: the last loop step of a write raises `we_n`,
writes the latched cell if the RAM was selected for the whole pulse (log 14) and no other cell, and returns to
CP_STR_WAIT with the counts and the wait timer loaded (log 8) or, on an injected fault (decision D13), fails the session.
The result is kept in the model's own field `wrRet` (log 11). -/
def Obligations.LastWriteStepReturns : Prop :=
  ∀ s : State, s.cp = .write → s.wphase = .weHigh →
    ∃ t, exec (.wrStep 14) s = .next t ∧
      (s.ports.busFault = false → t = { s with
        lines := { s.lines with weN := 1 }
        trace := s.trace ++ [.set .weN 1]
        mem := t.mem
        wphase := .wIdle
        wrRet := .ok
        sess := { s.sess with cursor := s.sess.cursor + 1, bytesWritten := s.sess.bytesWritten + 1 }
        cp := .strWait
        timer := { loadedAt := s.now, expired := false } }) ∧
      (s.ports.busFault = true → t = { s with
        lines := { s.lines with weN := 1 }
        trace := s.trace ++ [.set .weN 1]
        mem := t.mem
        wphase := .wIdle
        wrRet := .busError
        err := .busError
        tEnd := BitVec.ofNat 64 s.now
        sphase := .eLoe
        cp := .endRun }) ∧
      (∀ a, a ≠ latchAddress s.latches → ramAt t a = ramAt s a) ∧
      (s.lines.weN = 0 → s.pulseOk = true → s.lines.csN = 0 → s.lines.loeN = 0 →
        ramAt t (latchAddress s.latches) = some s.latches.dl) ∧
      (s.pulseOk = false ∨ s.lines.csN ≠ 0 ∨ s.lines.loeN ≠ 0 → t.mem = s.mem)

/-- 40_bus_sequencer.md, section 4 ("A model may run the fifteen phases as one atomic step", log 10): from any phase, the
loop's steps to the end of the write are WRITE_BYTE from that phase and then its return. -/
def Obligations.SmallStepsAreTheAtomicWrite : Prop :=
  ∀ (s : State) (p : BitVec 4), s.env = [] → s.cp = .write → p ≠ 15 → s.wphase.code = p →
    after (15 - p.toNat) s =
      execSeq [.writeByte p, if s.ports.busFault then .wrErr else .wrOk] (clearPulses s)

/-- 40_bus_sequencer.md R131: during a write no event is taken, no session phase runs and no other write starts; phase
follows phase, and nothing but the block's reset can cut it short. -/
def Obligations.WriteIsOneUnit : Prop :=
  (∀ s : State, s.env = [] → s.cp = .write → s.wphase ≠ .wIdle → s.wphase ≠ .weHigh →
    ∃ t, step s = .next t ∧ t.cp = .write ∧ t.wphase = nextWPhase s.wphase ∧ t.rx = s.rx ∧ t.sphase = s.sphase ∧
      t.wr = s.wr) ∧
  ∀ s t : State, s.cp = .write → s.wphase ≠ .wIdle → s.wphase ≠ .weHigh → s.env.head? ≠ some .reset →
    step s = .next t →
    t.cp = .write ∧ t.wr = s.wr ∧ t.sphase = s.sphase ∧ (t.wphase = s.wphase ∨ t.wphase = nextWPhase s.wphase)

/-! ### The host -/

/-- 43_host_uploader.md, the steps of H.UPLOAD (log 13): an error of the transport ends the run with an error kind of its
own; with a sound transport, each step's sends and receives, the waits for a reply, and the result. Nothing of the
block is touched. -/
def Obligations.HostRunsTheUploadProtocol : Prop :=
  (∀ (s : State) (a : Addr) (image : List Byte), s.host.linkError = true →
    exec (.hUpload a image) s = .next { s with host := { s.host with phase := .idle, result := .err .transport } }) ∧
  ∀ (s : State) (a : Addr) (image : List Byte), s.host.linkError = false →
    (s.host.phase = .idle → exec (.hUpload a image) s = .next { s with
      rx := s.rx ++ [0x55]
      host := { s.host with phase := .readAck, start := a, image := image, left := image, result := .nothing } }) ∧
    (s.host.phase = .readAck → s.tx = [] → exec (.hUpload a image) s = .next s) ∧
    (∀ r rest, s.host.phase = .readAck → s.tx = r :: rest → exec (.hUpload a image) s = .next { s with
      tx := rest
      host := (if r = 0x41 then { s.host with phase := .sendLo }
        else { s.host with phase := .idle, result := .err .unexpectedAck }) }) ∧
    (s.host.phase = .sendLo → exec (.hUpload a image) s = .next { s with
      rx := s.rx ++ [a.extractLsb' 0 8], host := { s.host with phase := .sendHi } }) ∧
    (s.host.phase = .sendHi → exec (.hUpload a image) s = .next { s with
      rx := s.rx ++ [a.extractLsb' 8 8], host := { s.host with phase := .sendImage } }) ∧
    (∀ b rest, s.host.phase = .sendImage → s.host.left = b :: rest → exec (.hUpload a image) s = .next { s with
      rx := s.rx ++ [b], host := { s.host with left := rest } }) ∧
    (s.host.phase = .sendImage → s.host.left = [] → exec (.hUpload a image) s = .next { s with
      rx := s.rx ++ [0x45], host := { s.host with phase := .readConfirm } }) ∧
    (s.host.phase = .readConfirm → s.tx = [] → exec (.hUpload a image) s = .next s) ∧
    ∀ r rest, s.host.phase = .readConfirm → s.tx = r :: rest → exec (.hUpload a image) s = .next { s with
      tx := rest
      host := { s.host with
        phase := .idle
        result := (if r = 0x4B then .ok image.length else .err .unexpectedConfirm) } }

/-- 43_host_uploader.md and 30_encoding.md, sections 1 and 5: a run whose acknowledge has been read puts the header, the
image and the end marker into the receive channel, in order, and then waits for the confirm. -/
def Obligations.HostSendsTheFrame : Prop :=
  ∀ (s : State) (rest : List EnvAct), s.host.phase = .sendLo → s.host.left = s.host.image →
    s.env = List.replicate (s.host.image.length + 3) (EnvAct.host false) ++ rest →
    ∃ t, after (s.host.image.length + 3) s = .next t ∧
      t.rx = s.rx ++ ([s.host.start.extractLsb' 0 8, s.host.start.extractLsb' 8 8] ++ s.host.image ++ [0x45]) ∧
      t.host.phase = .readConfirm ∧ t.cp = s.cp ∧ t.mem = s.mem ∧ t.env = rest

/-! ### Reset -/

/-- 70_reset_and_hazards.md, section 1, and the reset values of 10_state.md, section 8 (decision D22): `rst_n` gives
every register of the block the value of the reset state and every line its rest level, sends and reports nothing, and
leaves the input ports, the channels, the host and the parameters; the external parts change only where a pulse is cut
short. The model's own choices in it: the reset is one act between steps (log 6) and leaves the time base (log 17) and
the output trace (log 16) as they are; it enters CP_IDLE_WAIT and so loads the wait timer (60_exceptions.md, section 6,
R259; its form is log 8); `wrRet` and `pulseOk` are the model's own fields, Ok and false after it (logs 11, 14). -/
def Obligations.BlockResetRestoresTheBlock : Prop :=
  ∀ (s : State) (rest : List EnvAct), s.env = .reset :: rest →
    ∃ t, step s = .next t ∧
      t = { State.reset with
        params := s.params
        lines := {
          bus := 0x00
          leAh := ~~~s.params.leActive
          leAl := ~~~s.params.leActive
          leD := ~~~s.params.leActive
          weN := 1
          csN := 1
          oeN := 1
          trstN := 1
          loeN := 1 }
        now := s.now
        timer := { loadedAt := s.now, expired := false }
        ports := s.ports
        rx := s.rx
        tx := s.tx
        latches := t.latches
        mem := t.mem
        draws := t.draws
        host := s.host
        trace := s.trace
        env := rest } ∧
      (s.wphase ≠ .ahHold → s.wphase ≠ .ahRelease → t.latches.ah = s.latches.ah) ∧
      (s.wphase ≠ .alHold → s.wphase ≠ .alRelease → t.latches.al = s.latches.al) ∧
      (s.wphase ≠ .dHold → s.wphase ≠ .dRelease → t.latches.dl = s.latches.dl) ∧
      ∀ a, (s.wphase ≠ .weHold ∧ s.wphase ≠ .weHigh) ∨ a ≠ latchAddress s.latches → ramAt t a = ramAt s a

/-- 10_state.md, section 8: the reset values the spec lists for the block. -/
def Obligations.ResetStateOfTheBlock : Prop :=
  State.reset.cp = .idleWait ∧ State.reset.err = .none ∧ State.reset.hdrCnt = 0 ∧ State.reset.hdrLo = 0x00 ∧
  State.reset.sess = { valid := false, startAddress := 0, cursor := 0, bytesWritten := 0, startedAt := 0 } ∧
  State.reset.tEnd = 0 ∧ State.reset.wr = { addr := 0, data := 0 } ∧
  State.reset.wphase = .wIdle ∧ State.reset.sphase = .sIdle ∧
  State.reset.lines = { bus := 0, leAh := 0, leAl := 0, leD := 0, weN := 1, csN := 1, oeN := 1, trstN := 1, loeN := 1 } ∧
  State.reset.res = { status := 0, kind := .none, bytes := 0, start := 0, elapsed := 0 } ∧
  State.reset.warnTimeout = false ∧ State.reset.resValid = false ∧ txValid State.reset = false ∧
  rxReady State.reset = true ∧ State.reset.now = 0

/-! ### Invariants and rules of the whole machine -/

/-- 10_state.md, sections 2 and 9, 40_bus_sequencer.md, sections 5 and 6, 41_session_controller.md, section 4: what the
control loop keeps true, kept by every step, the environment's acts and the block's reset among them. -/
def Obligations.StepKeepsConsistency : Prop :=
  ∀ s t : State, Consistent s → step s = .next t → Consistent t

/-- The reset state is consistent, its RAM in the model's canonical form (log 5), and nothing has been sent. -/
def Obligations.ResetStateIsConsistent : Prop :=
  Consistent State.reset ∧ State.reset.mem.wf = true ∧ RepliesOnly State.reset

/-- 60_exceptions.md, sections 1 and 4 (R244, R257: the block has no stuck state): from a consistent state every step is
answered by a next state. -/
def Obligations.ConsistentStatesStep : Prop :=
  ∀ s : State, Consistent s → ∃ t, step s = .next t

/-- 41_session_controller.md, section 4 (R154): whenever the target runs, chip-select and the latch outputs are off,
before and after every step from a consistent state, the block's reset included; and `oe_n` rests (decision D19). -/
def Obligations.TargetRunsOnlyOffTheBus : Prop :=
  ∀ s t : State, Consistent s → step s = .next t →
    BusSafe s ∧ BusSafe t ∧ t.lines.oeN = 1 ∧
    ((t.lines.csN = 0 ∨ t.lines.loeN = 0) → s.lines.trstN = 0 ∧ t.lines.trstN = 0)

/-- The RAM of 20_memory.md, sections 1 and 3, is a list of cells, addresses strictly rising and below 65,536: this form is
the model's own choice (log 5), and every step keeps it. -/
def Obligations.StepKeepsTheRamCanonical : Prop :=
  ∀ s t : State, s.mem.wf = true → step s = .next t → t.mem.wf = true

/-- 20_memory.md, sections 1, 3 and 5: one cell at most changes in a step, the one the latches address, and only at the
end of a strobe or where the block's reset cuts a strobe short. -/
def Obligations.OnlyTheStrobeWritesTheRam : Prop :=
  ∀ s t : State, step s = .next t →
    (∀ a, a ≠ latchAddress s.latches → ramAt t a = ramAt s a) ∧
    (t.mem ≠ s.mem →
      (s.cp = .write ∧ s.wphase = .weHigh) ∨
      (s.env.head? = some .reset ∧ (s.wphase = .weHold ∨ s.wphase = .weHigh)))

/-- 30_encoding.md, section 1: the device sends 0x41 and 0x4B and nothing else, ever. -/
def Obligations.OnlyTheTwoReplies : Prop :=
  ∀ s t : State, RepliesOnly s → step s = .next t → RepliesOnly t

/-- 10_state.md, section 4 (R34): but for the block's reset, BusLineState is a pure function of the trace. -/
def Obligations.LinesFollowTheTrace : Prop :=
  ∀ s t : State, step s = .next t → s.env.head? ≠ some .reset →
    s.lines = linesOfTrace s.params.leActive s.trace → t.lines = linesOfTrace t.params.leActive t.trace

/-- 42_upload_protocol.md, section 6: `cp` changes only along the pairs of the whole transition table, or to
CP_IDLE_WAIT by the block's reset. -/
def Obligations.ControlPointMoves : Prop :=
  ∀ s t : State, step s = .next t →
    t.cp = s.cp ∨ (s.cp, t.cp) ∈ cpMoves ∨ (s.env.head? = some .reset ∧ t.cp = .idleWait)

/-- 20_memory.md, section 5, and 60_exceptions.md, sections 2 and 3 (its decision D33; log 7): away from a wait point a
step of the CORE takes nothing from the receive channel and no report of a closed stream; at a wait point the event is
the next byte, which leaves the channel, else the closed stream, else the expired wait, else none. -/
def Obligations.EventsAreTakenInOrder : Prop :=
  (∀ s : State,
    (∀ b rest, s.rx = b :: rest → pendingEvent s = some (.byte b)) ∧
    (s.rx = [] → s.ports.rxClosed = true → pendingEvent s = some .closed) ∧
    (s.rx = [] → s.ports.rxClosed = false → s.timer.expired = true → pendingEvent s = some .timeout) ∧
    (s.rx = [] → s.ports.rxClosed = false → s.timer.expired = false → pendingEvent s = none)) ∧
  ∀ s u t : State, CoreTurn s u → step s = .next t →
    (u.cp.isWait = false → t.rx = u.rx ∧ t.ports = u.ports) ∧
    (u.cp.isWait = true → t.rx = u.rx.tail ∧ (u.rx ≠ [] → t.ports = u.ports))

/-- 00_scope.md, section 4 (R10), 70_reset_and_hazards.md, section 2, and 93_implementation_defined.md, U15 and U16: time
never runs back and the parameters are constants; at a wait point a step takes no time but what the environment's act
brings, a `Timeout` among its events; and the three wait bounds enter no step. Where the environment keeps the wait timer
of 60_exceptions.md, section 6, which is a premise (`Timely`, log 8), a step that takes a `Timeout` ends no earlier than
the bound after the wait was loaded. -/
def Obligations.TimeGrowsAndParametersStay : Prop :=
  (∀ s t : State, step s = .next t → s.now ≤ t.now ∧ t.params = s.params) ∧
  (∀ s u t : State, CoreTurn s u → u.cp.isWait = true → step s = .next t → t.now = u.now) ∧
  (∀ (s t : State) (idlePoll hdr byte : Nat), step s = .next t →
    step (withBounds idlePoll hdr byte s) = .next (withBounds idlePoll hdr byte t)) ∧
  ∀ s u t : State, CoreTurn s u → Timely u → u.cp.isWait = true → pendingEvent u = some .timeout → step s = .next t →
    u.timer.loadedAt + waitBound u ≤ t.now

/-- 42_upload_protocol.md, section 5, and 60_exceptions.md, section 4: a live UploadSession ends in FIN.REPORT or by the
block's reset, and in no other step. -/
def Obligations.SessionEndsOnlyInTheReport : Prop :=
  ∀ s t : State, step s = .next t → s.sess.valid = true → t.sess.valid = false →
    s.cp = .report ∨ s.env.head? = some .reset

/-! ### Whole writes and whole sessions -/

/-- 20_memory.md, sections 3 and 5, and 42_upload_protocol.md, section 4: a data byte taken in Streaming is, sixteen steps
on, in the RAM at the cursor and nowhere else, and the session stands one byte further. -/
def Obligations.DataByteLandsAtTheCursor : Prop :=
  ∀ (s : State) (b : Byte) (rest : List Byte), Consistent s → Quiet s → s.cp = .strWait → s.rx = b :: rest →
    b ≠ 0x45 →
    ∃ t, after 16 s = .next t ∧ Consistent t ∧ Quiet t ∧ t.cp = .strWait ∧ t.rx = rest ∧
      t.mem = Memory.write s.mem s.sess.cursor.toNat b ∧
      t.sess = { s.sess with cursor := s.sess.cursor + 1, bytesWritten := s.sess.bytesWritten + 1 } ∧
      t.trace = s.trace ++ writeTrain s.params.leActive s.sess.cursor b ∧
      t.lines = { s.lines with bus := b } ∧ t.tx = s.tx ∧ t.err = s.err ∧ t.params = s.params

/-- 42_upload_protocol.md, section 8 (R207, with its decision D39 on what a valid image is): a well-formed upload of an
image that holds no end marker runs to the end, gives exactly the trace the rule lists, leaves the RAM as its writes in
order leave it, reports `Done` with the count, and gives the lines back as they were but for the bus. That is the run in
which nothing else happens. Under every schedule, with timeouts in Idle and in Streaming, a blocked channel, any time
between steps and any acts but the block's reset, each step keeps the upload on its course: it takes the next byte of the
frame or none, and the only way off the course is the report of the finished upload. -/
def Obligations.UploadWritesTheImage : Prop :=
  (∀ (s : State) (a : Addr) (image rest : List Byte), Consistent s → Quiet s → s.cp = .idleWait →
    (∀ b ∈ image, b ≠ 0x45) →
    s.rx = [0x55, a.extractLsb' 0 8, a.extractLsb' 8 8] ++ image ++ [0x45] ++ rest →
    ∃ t, after (15 + 16 * image.length) s = .next t ∧ t.cp = .idleWait ∧ t.rx = rest ∧
      t.tx = s.tx ++ [0x41, 0x4B] ∧
      t.res.status = 0 ∧ t.res.kind = .none ∧ t.res.bytes = BitVec.ofNat 32 image.length ∧ t.res.start = a ∧
      t.trace = s.trace ++ [.tx 0x41] ++ beginTrain ++ imageTrain s.params.leActive a image ++ [.tx 0x4B] ++
        endTrain ++ [.result t.res] ∧
      t.mem = writeImage s.mem a image ∧ t.lines = { s.lines with bus := t.lines.bus }) ∧
  ∀ (j : Upload) (left : List Byte) (s t : State), (∀ b ∈ j.image, b ≠ 0x45) → Consistent s → Uploading j left s →
    Undisturbed left s → step s = .next t →
    (∃ left', Uploading j left' t ∧ (left' = left ∨ ∃ b, left = b :: left' ∧ s.rx.head? = some b)) ∨
    (s.cp = .report ∧ Uploaded j t)

/-- 42_upload_protocol.md, section 8, and test vectors X3, X4: a run of at most 65,536 bytes written from an address on
leaves byte `i` at `(a + i) mod 65536` and every other cell as it was. -/
def Obligations.ImageLandsInOrder : Prop :=
  ∀ (m : Memory) (a : Addr) (image : List Byte), image.length ≤ 65536 →
    (∀ i (h : i < image.length), Memory.read (writeImage m a image) ((a.toNat + i) % 65536) = some image[i]) ∧
    ∀ x : Addr, (∀ i, i < image.length → x.toNat ≠ (a.toNat + i) % 65536) →
      Memory.read (writeImage m a image) x.toNat = Memory.read m x.toNat

/-- 10_state.md, sections 2 and 7 (decisions D1, D2, D18): `fsm` and the handshake outputs as functions of `cp` and
`err`. -/
def Obligations.StatusFollowsTheControlPoint : Prop :=
  ∀ s : State,
    (fsm s = .idle ↔ s.cp = .idleWait ∨ s.cp = .ackTx) ∧
    (fsm s = .awaitingAddress ↔ s.cp = .hdrWait ∨ s.cp = .beginRun) ∧
    (fsm s = .streaming ↔ s.cp = .strWait ∨ s.cp = .write ∨ s.cp = .confirmTx) ∧
    (fsm s = .done ↔ (s.cp = .endRun ∨ s.cp = .report) ∧ s.err = .none) ∧
    (fsm s = .failed ↔ (s.cp = .endRun ∨ s.cp = .report) ∧ s.err ≠ .none) ∧
    (rxReady s = true ↔ s.cp = .idleWait ∨ s.cp = .hdrWait ∨ s.cp = .strWait) ∧
    (txData s = some 0x41 ↔ s.cp = .ackTx) ∧ (txData s = some 0x4B ↔ s.cp = .confirmTx) ∧
    (txValid s = true ↔ (txData s).isSome = true)
end

