-- ==== Sys2Proof/Laws/Decode.lean ====
section
/-! SUPPORT. The fields of packed words, and the codes. -/

namespace Sys2Proof

@[simp] theorem ofCode_code (c : ControlPoint) : ControlPoint.ofCode c.code = some c := by cases c <;> rfl

@[simp] theorem wPhase_ofCode_code (p : WPhase) : WPhase.ofCode p.code = p := by cases p <;> rfl

@[simp] theorem sPhase_ofCode_code (p : SPhase) : SPhase.ofCode p.code = p := by cases p <;> rfl

theorem wPhase_code_ofCode : ∀ c : BitVec 4, (WPhase.ofCode c).code = c := by decide

theorem wPhase_code_idle (p : WPhase) : p.code = 15 ↔ p = .wIdle := by cases p <;> decide

/-- The high part of a concatenation. -/
theorem append_high {n m : Nat} (x : BitVec n) (y : BitVec m) : (x ++ y).extractLsb' m n = x := by
  ext i h
  simp [BitVec.getLsbD_append, h]

/-- The low part of a concatenation. -/
theorem append_low {n m : Nat} (x : BitVec n) (y : BitVec m) : (x ++ y).extractLsb' 0 m = y := by
  ext i h
  simp [BitVec.getLsbD_append, h]

@[simp] theorem controlCp_pack : ∀ (c p : BitVec 4) (f : BitVec 1), controlCp (packControl c p f) = c := by decide

@[simp] theorem controlPhase_pack : ∀ (c p : BitVec 4) (f : BitVec 1), controlPhase (packControl c p f) = p := by
  decide

@[simp] theorem controlFault_pack (c p : BitVec 4) (f : BitVec 1) : controlFault (packControl c p f) = f :=
  append_low (c ++ p) f

@[simp] theorem eventKind_byte (b : Byte) : eventKind (eventWord (.byte b)) = 0 := append_high (0 : BitVec 2) b

@[simp] theorem eventData_byte (b : Byte) : eventData (eventWord (.byte b)) = b := append_low (0 : BitVec 2) b

@[simp] theorem eventKind_timeout : eventKind (eventWord .timeout) = 1 := rfl

@[simp] theorem eventKind_closed : eventKind (eventWord .closed) = 2 := rfl

@[simp] theorem pair_high (h l : BitVec 2) : (h ++ l).extractLsb' 2 2 = h := append_high h l

@[simp] theorem pair_low (h l : BitVec 2) : (h ++ l).extractLsb' 0 2 = l := append_low h l

@[simp] theorem address_high (h l : Byte) : (h ++ l).extractLsb' 8 8 = h := append_high h l

@[simp] theorem address_low (h l : Byte) : (h ++ l).extractLsb' 0 8 = l := append_low h l

/-- The header halves of an address put together give the address (30_encoding.md R93). -/
theorem headerAddress_halves (a : Addr) : headerAddress (a.extractLsb' 8 8) (a.extractLsb' 0 8) = a := by
  simp only [headerAddress]
  exact BitVec.eq_of_toNat_eq (by
    have := a.isLt
    simp only [BitVec.toNat_append, BitVec.extractLsb'_toNat, Nat.shiftRight_zero]
    rw [← Nat.shiftLeft_add_eq_or_of_lt (by omega)]
    simp only [Nat.shiftLeft_eq, Nat.shiftRight_eq_div_pow]
    omega)

end Sys2Proof
end

