-- ==== Sys2Proof/Laws/Memory.lean ====
section
/-! SUPPORT. The laws of the RAM: a read after a write, the other cells, the canonical form. -/

namespace Sys2Proof.Machine

theorem read_write_same (m : Memory) (a : Nat) (b : Byte) : Memory.read (Memory.write m a b) a = some b := by
  induction m with
  | nil => simp [Memory.write, Memory.read]
  | cons c m ih =>
    obtain ⟨k, v⟩ := c
    by_cases h1 : a < k
    · simp [Memory.write, h1, Memory.read]
    · by_cases h2 : a = k
      · simp [Memory.write, h2, Memory.read]
      · simp [Memory.write, h1, h2, Memory.read, ih, Ne.symm h2]

theorem read_write_other (m : Memory) {a a' : Nat} (b : Byte) (h : a' ≠ a) :
    Memory.read (Memory.write m a b) a' = Memory.read m a' := by
  induction m with
  | nil => simp [Memory.write, Memory.read, h.symm]
  | cons c m ih =>
    obtain ⟨k, v⟩ := c
    by_cases h1 : a < k
    · simp [Memory.write, h1, Memory.read, h.symm]
    · by_cases h2 : a = k
      · simp [Memory.write, h2, Memory.read, h2 ▸ h.symm]
      · simp only [Memory.write, h1, h2, if_false, Memory.read, ih]

/-- One write, read at any address. -/
theorem read_write (m : Memory) (a a' : Nat) (b : Byte) :
    Memory.read (Memory.write m a b) a' = if a' = a then some b else Memory.read m a' := by
  by_cases h : a' = a
  · rw [if_pos h, h, read_write_same]
  · rw [if_neg h, read_write_other m b h]

theorem wfFrom_write (m : Memory) (lo a : Nat) (b : Byte) (hlo : lo ≤ a) (ha : a < 65536)
    (hm : Memory.wfFrom lo m = true) : Memory.wfFrom lo (Memory.write m a b) = true := by
  induction m generalizing lo with
  | nil => simp [Memory.write, Memory.wfFrom, hlo, ha]
  | cons c m ih =>
    obtain ⟨k, v⟩ := c
    simp only [Memory.wfFrom, Bool.and_eq_true, decide_eq_true_eq] at hm
    obtain ⟨⟨h1, h2⟩, h3⟩ := hm
    by_cases hlt : a < k
    · simp [Memory.write, hlt, Memory.wfFrom, hlo, ha, h2, h3, Nat.succ_le_of_lt hlt]
    · by_cases heq : a = k
      · subst heq
        simp [Memory.write, Memory.wfFrom, hlo, ha, h3]
      · simp [Memory.write, hlt, heq, Memory.wfFrom, h1, h2, ih (k + 1) (by omega) h3]

/-- A write keeps the canonical form. -/
theorem write_wf (m : Memory) (a : Addr) (b : Byte) (hm : m.wf = true) : (m.write a.toNat b).wf = true :=
  wfFrom_write m 0 a.toNat b (Nat.zero_le _) a.isLt hm

theorem storeRam_wf (a : Addr) (b : Byte) (s : State) (h : s.mem.wf = true) : (storeRam a b s).mem.wf = true :=
  write_wf s.mem a b h

/-- Driving a line keeps the canonical form. -/
theorem memAfter_wf (l : Line) (v : Level) (s : State) (h : s.mem.wf = true) : (memAfter l v s).wf = true := by
  cases l
  case weN =>
    simp only [memAfter]
    split
    · exact write_wf s.mem _ _ h
    · exact h
  all_goals exact h

/-- The block's reset, a pulse cut short among it, keeps the canonical form. -/
theorem cutPulse_wf (s : State) (h : s.mem.wf = true) : (cutPulse s).mem.wf = true := by
  unfold cutPulse
  split
  case h_7 => exact write_wf s.mem _ _ h
  case h_8 => exact write_wf s.mem _ _ h
  all_goals exact h

theorem ramAt_storeRam (a a' : Addr) (b : Byte) (s : State) :
    ramAt (storeRam a b s) a' = if a' = a then some b else ramAt s a' := by
  simp only [ramAt, storeRam, read_write, BitVec.toNat_inj]

theorem reset_mem_wf : State.reset.mem.wf = true := rfl

end Sys2Proof.Machine
end

