-- ==== Sys2Proof/Laws/State.lean ====
section
/-! SUPPORT. One lemma per field per shared update, so that no later proof unfolds a record update. -/

namespace Sys2Proof.Machine

/-! ### `emit` -/

@[simp] theorem emit_params (e : OutEvent) (s : State) : (emit e s).params = s.params := rfl
@[simp] theorem emit_cp (e : OutEvent) (s : State) : (emit e s).cp = s.cp := rfl
@[simp] theorem emit_err (e : OutEvent) (s : State) : (emit e s).err = s.err := rfl
@[simp] theorem emit_hdrCnt (e : OutEvent) (s : State) : (emit e s).hdrCnt = s.hdrCnt := rfl
@[simp] theorem emit_hdrLo (e : OutEvent) (s : State) : (emit e s).hdrLo = s.hdrLo := rfl
@[simp] theorem emit_wphase (e : OutEvent) (s : State) : (emit e s).wphase = s.wphase := rfl
@[simp] theorem emit_sphase (e : OutEvent) (s : State) : (emit e s).sphase = s.sphase := rfl
@[simp] theorem emit_sess (e : OutEvent) (s : State) : (emit e s).sess = s.sess := rfl
@[simp] theorem emit_tEnd (e : OutEvent) (s : State) : (emit e s).tEnd = s.tEnd := rfl
@[simp] theorem emit_wr (e : OutEvent) (s : State) : (emit e s).wr = s.wr := rfl
@[simp] theorem emit_wrRet (e : OutEvent) (s : State) : (emit e s).wrRet = s.wrRet := rfl
@[simp] theorem emit_lines (e : OutEvent) (s : State) : (emit e s).lines = s.lines := rfl
@[simp] theorem emit_res (e : OutEvent) (s : State) : (emit e s).res = s.res := rfl
@[simp] theorem emit_warnTimeout (e : OutEvent) (s : State) : (emit e s).warnTimeout = s.warnTimeout := rfl
@[simp] theorem emit_resValid (e : OutEvent) (s : State) : (emit e s).resValid = s.resValid := rfl
@[simp] theorem emit_now (e : OutEvent) (s : State) : (emit e s).now = s.now := rfl
@[simp] theorem emit_timer (e : OutEvent) (s : State) : (emit e s).timer = s.timer := rfl
@[simp] theorem emit_ports (e : OutEvent) (s : State) : (emit e s).ports = s.ports := rfl
@[simp] theorem emit_rx (e : OutEvent) (s : State) : (emit e s).rx = s.rx := rfl
@[simp] theorem emit_tx (e : OutEvent) (s : State) : (emit e s).tx = s.tx := rfl
@[simp] theorem emit_latches (e : OutEvent) (s : State) : (emit e s).latches = s.latches := rfl
@[simp] theorem emit_pulseOk (e : OutEvent) (s : State) : (emit e s).pulseOk = s.pulseOk := rfl
@[simp] theorem emit_mem (e : OutEvent) (s : State) : (emit e s).mem = s.mem := rfl
@[simp] theorem emit_draws (e : OutEvent) (s : State) : (emit e s).draws = s.draws := rfl
@[simp] theorem emit_host (e : OutEvent) (s : State) : (emit e s).host = s.host := rfl
@[simp] theorem emit_trace (e : OutEvent) (s : State) : (emit e s).trace = s.trace ++ [e] := rfl
@[simp] theorem emit_env (e : OutEvent) (s : State) : (emit e s).env = s.env := rfl

/-! ### `driveBus` -/

@[simp] theorem driveBus_params (v : Byte) (s : State) : (driveBus v s).params = s.params := rfl
@[simp] theorem driveBus_cp (v : Byte) (s : State) : (driveBus v s).cp = s.cp := rfl
@[simp] theorem driveBus_err (v : Byte) (s : State) : (driveBus v s).err = s.err := rfl
@[simp] theorem driveBus_hdrCnt (v : Byte) (s : State) : (driveBus v s).hdrCnt = s.hdrCnt := rfl
@[simp] theorem driveBus_hdrLo (v : Byte) (s : State) : (driveBus v s).hdrLo = s.hdrLo := rfl
@[simp] theorem driveBus_wphase (v : Byte) (s : State) : (driveBus v s).wphase = s.wphase := rfl
@[simp] theorem driveBus_sphase (v : Byte) (s : State) : (driveBus v s).sphase = s.sphase := rfl
@[simp] theorem driveBus_sess (v : Byte) (s : State) : (driveBus v s).sess = s.sess := rfl
@[simp] theorem driveBus_tEnd (v : Byte) (s : State) : (driveBus v s).tEnd = s.tEnd := rfl
@[simp] theorem driveBus_wr (v : Byte) (s : State) : (driveBus v s).wr = s.wr := rfl
@[simp] theorem driveBus_wrRet (v : Byte) (s : State) : (driveBus v s).wrRet = s.wrRet := rfl
@[simp] theorem driveBus_lines (v : Byte) (s : State) : (driveBus v s).lines = { s.lines with bus := v } := rfl
@[simp] theorem driveBus_res (v : Byte) (s : State) : (driveBus v s).res = s.res := rfl
@[simp] theorem driveBus_warnTimeout (v : Byte) (s : State) : (driveBus v s).warnTimeout = s.warnTimeout := rfl
@[simp] theorem driveBus_resValid (v : Byte) (s : State) : (driveBus v s).resValid = s.resValid := rfl
@[simp] theorem driveBus_now (v : Byte) (s : State) : (driveBus v s).now = s.now := rfl
@[simp] theorem driveBus_timer (v : Byte) (s : State) : (driveBus v s).timer = s.timer := rfl
@[simp] theorem driveBus_ports (v : Byte) (s : State) : (driveBus v s).ports = s.ports := rfl
@[simp] theorem driveBus_rx (v : Byte) (s : State) : (driveBus v s).rx = s.rx := rfl
@[simp] theorem driveBus_tx (v : Byte) (s : State) : (driveBus v s).tx = s.tx := rfl
@[simp] theorem driveBus_latches (v : Byte) (s : State) : (driveBus v s).latches = s.latches := rfl
@[simp] theorem driveBus_pulseOk (v : Byte) (s : State) : (driveBus v s).pulseOk = s.pulseOk := rfl
@[simp] theorem driveBus_mem (v : Byte) (s : State) : (driveBus v s).mem = s.mem := rfl
@[simp] theorem driveBus_draws (v : Byte) (s : State) : (driveBus v s).draws = s.draws := rfl
@[simp] theorem driveBus_host (v : Byte) (s : State) : (driveBus v s).host = s.host := rfl
@[simp] theorem driveBus_trace (v : Byte) (s : State) : (driveBus v s).trace = s.trace ++ [.bus v] := rfl
@[simp] theorem driveBus_env (v : Byte) (s : State) : (driveBus v s).env = s.env := rfl

/-! ### `setLine` -/

@[simp] theorem setLine_params (l : Line) (v : Level) (s : State) : (setLine l v s).params = s.params := rfl
@[simp] theorem setLine_cp (l : Line) (v : Level) (s : State) : (setLine l v s).cp = s.cp := rfl
@[simp] theorem setLine_err (l : Line) (v : Level) (s : State) : (setLine l v s).err = s.err := rfl
@[simp] theorem setLine_hdrCnt (l : Line) (v : Level) (s : State) : (setLine l v s).hdrCnt = s.hdrCnt := rfl
@[simp] theorem setLine_hdrLo (l : Line) (v : Level) (s : State) : (setLine l v s).hdrLo = s.hdrLo := rfl
@[simp] theorem setLine_wphase (l : Line) (v : Level) (s : State) : (setLine l v s).wphase = s.wphase := rfl
@[simp] theorem setLine_sphase (l : Line) (v : Level) (s : State) : (setLine l v s).sphase = s.sphase := rfl
@[simp] theorem setLine_sess (l : Line) (v : Level) (s : State) : (setLine l v s).sess = s.sess := rfl
@[simp] theorem setLine_tEnd (l : Line) (v : Level) (s : State) : (setLine l v s).tEnd = s.tEnd := rfl
@[simp] theorem setLine_wr (l : Line) (v : Level) (s : State) : (setLine l v s).wr = s.wr := rfl
@[simp] theorem setLine_wrRet (l : Line) (v : Level) (s : State) : (setLine l v s).wrRet = s.wrRet := rfl
@[simp] theorem setLine_lines (l : Line) (v : Level) (s : State) : (setLine l v s).lines = s.lines.drive l v := rfl
@[simp] theorem setLine_res (l : Line) (v : Level) (s : State) : (setLine l v s).res = s.res := rfl
@[simp] theorem setLine_warnTimeout (l : Line) (v : Level) (s : State) :
    (setLine l v s).warnTimeout = s.warnTimeout := rfl
@[simp] theorem setLine_resValid (l : Line) (v : Level) (s : State) : (setLine l v s).resValid = s.resValid := rfl
@[simp] theorem setLine_now (l : Line) (v : Level) (s : State) : (setLine l v s).now = s.now := rfl
@[simp] theorem setLine_timer (l : Line) (v : Level) (s : State) : (setLine l v s).timer = s.timer := rfl
@[simp] theorem setLine_ports (l : Line) (v : Level) (s : State) : (setLine l v s).ports = s.ports := rfl
@[simp] theorem setLine_rx (l : Line) (v : Level) (s : State) : (setLine l v s).rx = s.rx := rfl
@[simp] theorem setLine_tx (l : Line) (v : Level) (s : State) : (setLine l v s).tx = s.tx := rfl
@[simp] theorem setLine_latches (l : Line) (v : Level) (s : State) : (setLine l v s).latches = latchesAfter l v s := rfl
@[simp] theorem setLine_pulseOk (l : Line) (v : Level) (s : State) : (setLine l v s).pulseOk = pulseAfter l v s := rfl
@[simp] theorem setLine_mem (l : Line) (v : Level) (s : State) : (setLine l v s).mem = memAfter l v s := rfl
@[simp] theorem setLine_draws (l : Line) (v : Level) (s : State) : (setLine l v s).draws = s.draws := rfl
@[simp] theorem setLine_host (l : Line) (v : Level) (s : State) : (setLine l v s).host = s.host := rfl
@[simp] theorem setLine_trace (l : Line) (v : Level) (s : State) : (setLine l v s).trace = s.trace ++ [.set l v] := rfl
@[simp] theorem setLine_env (l : Line) (v : Level) (s : State) : (setLine l v s).env = s.env := rfl

/-! ### `hold` -/

@[simp] theorem hold_params (g : Guard) (s : State) : (hold g s).params = s.params := rfl
@[simp] theorem hold_cp (g : Guard) (s : State) : (hold g s).cp = s.cp := rfl
@[simp] theorem hold_err (g : Guard) (s : State) : (hold g s).err = s.err := rfl
@[simp] theorem hold_hdrCnt (g : Guard) (s : State) : (hold g s).hdrCnt = s.hdrCnt := rfl
@[simp] theorem hold_hdrLo (g : Guard) (s : State) : (hold g s).hdrLo = s.hdrLo := rfl
@[simp] theorem hold_wphase (g : Guard) (s : State) : (hold g s).wphase = s.wphase := rfl
@[simp] theorem hold_sphase (g : Guard) (s : State) : (hold g s).sphase = s.sphase := rfl
@[simp] theorem hold_sess (g : Guard) (s : State) : (hold g s).sess = s.sess := rfl
@[simp] theorem hold_tEnd (g : Guard) (s : State) : (hold g s).tEnd = s.tEnd := rfl
@[simp] theorem hold_wr (g : Guard) (s : State) : (hold g s).wr = s.wr := rfl
@[simp] theorem hold_wrRet (g : Guard) (s : State) : (hold g s).wrRet = s.wrRet := rfl
@[simp] theorem hold_lines (g : Guard) (s : State) : (hold g s).lines = s.lines := rfl
@[simp] theorem hold_res (g : Guard) (s : State) : (hold g s).res = s.res := rfl
@[simp] theorem hold_warnTimeout (g : Guard) (s : State) : (hold g s).warnTimeout = s.warnTimeout := rfl
@[simp] theorem hold_resValid (g : Guard) (s : State) : (hold g s).resValid = s.resValid := rfl
@[simp] theorem hold_now (g : Guard) (s : State) : (hold g s).now = s.now + guardTime s.params g := rfl
@[simp] theorem hold_timer (g : Guard) (s : State) : (hold g s).timer = s.timer := rfl
@[simp] theorem hold_ports (g : Guard) (s : State) : (hold g s).ports = s.ports := rfl
@[simp] theorem hold_rx (g : Guard) (s : State) : (hold g s).rx = s.rx := rfl
@[simp] theorem hold_tx (g : Guard) (s : State) : (hold g s).tx = s.tx := rfl
@[simp] theorem hold_latches (g : Guard) (s : State) : (hold g s).latches = s.latches := rfl
@[simp] theorem hold_pulseOk (g : Guard) (s : State) : (hold g s).pulseOk = s.pulseOk := rfl
@[simp] theorem hold_mem (g : Guard) (s : State) : (hold g s).mem = s.mem := rfl
@[simp] theorem hold_draws (g : Guard) (s : State) : (hold g s).draws = s.draws := rfl
@[simp] theorem hold_host (g : Guard) (s : State) : (hold g s).host = s.host := rfl
@[simp] theorem hold_trace (g : Guard) (s : State) : (hold g s).trace = s.trace ++ [.wait g] := rfl
@[simp] theorem hold_env (g : Guard) (s : State) : (hold g s).env = s.env := rfl

/-! ### `sendTx` -/

@[simp] theorem sendTx_params (b : Byte) (s : State) : (sendTx b s).params = s.params := rfl
@[simp] theorem sendTx_cp (b : Byte) (s : State) : (sendTx b s).cp = s.cp := rfl
@[simp] theorem sendTx_err (b : Byte) (s : State) : (sendTx b s).err = s.err := rfl
@[simp] theorem sendTx_hdrCnt (b : Byte) (s : State) : (sendTx b s).hdrCnt = s.hdrCnt := rfl
@[simp] theorem sendTx_hdrLo (b : Byte) (s : State) : (sendTx b s).hdrLo = s.hdrLo := rfl
@[simp] theorem sendTx_wphase (b : Byte) (s : State) : (sendTx b s).wphase = s.wphase := rfl
@[simp] theorem sendTx_sphase (b : Byte) (s : State) : (sendTx b s).sphase = s.sphase := rfl
@[simp] theorem sendTx_sess (b : Byte) (s : State) : (sendTx b s).sess = s.sess := rfl
@[simp] theorem sendTx_tEnd (b : Byte) (s : State) : (sendTx b s).tEnd = s.tEnd := rfl
@[simp] theorem sendTx_wr (b : Byte) (s : State) : (sendTx b s).wr = s.wr := rfl
@[simp] theorem sendTx_wrRet (b : Byte) (s : State) : (sendTx b s).wrRet = s.wrRet := rfl
@[simp] theorem sendTx_lines (b : Byte) (s : State) : (sendTx b s).lines = s.lines := rfl
@[simp] theorem sendTx_res (b : Byte) (s : State) : (sendTx b s).res = s.res := rfl
@[simp] theorem sendTx_warnTimeout (b : Byte) (s : State) : (sendTx b s).warnTimeout = s.warnTimeout := rfl
@[simp] theorem sendTx_resValid (b : Byte) (s : State) : (sendTx b s).resValid = s.resValid := rfl
@[simp] theorem sendTx_now (b : Byte) (s : State) : (sendTx b s).now = s.now := rfl
@[simp] theorem sendTx_timer (b : Byte) (s : State) : (sendTx b s).timer = s.timer := rfl
@[simp] theorem sendTx_ports (b : Byte) (s : State) : (sendTx b s).ports = s.ports := rfl
@[simp] theorem sendTx_rx (b : Byte) (s : State) : (sendTx b s).rx = s.rx := rfl
@[simp] theorem sendTx_tx (b : Byte) (s : State) : (sendTx b s).tx = s.tx ++ [b] := rfl
@[simp] theorem sendTx_latches (b : Byte) (s : State) : (sendTx b s).latches = s.latches := rfl
@[simp] theorem sendTx_pulseOk (b : Byte) (s : State) : (sendTx b s).pulseOk = s.pulseOk := rfl
@[simp] theorem sendTx_mem (b : Byte) (s : State) : (sendTx b s).mem = s.mem := rfl
@[simp] theorem sendTx_draws (b : Byte) (s : State) : (sendTx b s).draws = s.draws := rfl
@[simp] theorem sendTx_host (b : Byte) (s : State) : (sendTx b s).host = s.host := rfl
@[simp] theorem sendTx_trace (b : Byte) (s : State) : (sendTx b s).trace = s.trace ++ [.tx b] := rfl
@[simp] theorem sendTx_env (b : Byte) (s : State) : (sendTx b s).env = s.env := rfl

/-! ### `loadTimer` -/

@[simp] theorem loadTimer_params (s : State) : (loadTimer s).params = s.params := rfl
@[simp] theorem loadTimer_cp (s : State) : (loadTimer s).cp = s.cp := rfl
@[simp] theorem loadTimer_err (s : State) : (loadTimer s).err = s.err := rfl
@[simp] theorem loadTimer_hdrCnt (s : State) : (loadTimer s).hdrCnt = s.hdrCnt := rfl
@[simp] theorem loadTimer_hdrLo (s : State) : (loadTimer s).hdrLo = s.hdrLo := rfl
@[simp] theorem loadTimer_wphase (s : State) : (loadTimer s).wphase = s.wphase := rfl
@[simp] theorem loadTimer_sphase (s : State) : (loadTimer s).sphase = s.sphase := rfl
@[simp] theorem loadTimer_sess (s : State) : (loadTimer s).sess = s.sess := rfl
@[simp] theorem loadTimer_tEnd (s : State) : (loadTimer s).tEnd = s.tEnd := rfl
@[simp] theorem loadTimer_wr (s : State) : (loadTimer s).wr = s.wr := rfl
@[simp] theorem loadTimer_wrRet (s : State) : (loadTimer s).wrRet = s.wrRet := rfl
@[simp] theorem loadTimer_lines (s : State) : (loadTimer s).lines = s.lines := rfl
@[simp] theorem loadTimer_res (s : State) : (loadTimer s).res = s.res := rfl
@[simp] theorem loadTimer_warnTimeout (s : State) : (loadTimer s).warnTimeout = s.warnTimeout := rfl
@[simp] theorem loadTimer_resValid (s : State) : (loadTimer s).resValid = s.resValid := rfl
@[simp] theorem loadTimer_now (s : State) : (loadTimer s).now = s.now := rfl
@[simp] theorem loadTimer_timer (s : State) : (loadTimer s).timer = { loadedAt := s.now, expired := false } := rfl
@[simp] theorem loadTimer_ports (s : State) : (loadTimer s).ports = s.ports := rfl
@[simp] theorem loadTimer_rx (s : State) : (loadTimer s).rx = s.rx := rfl
@[simp] theorem loadTimer_tx (s : State) : (loadTimer s).tx = s.tx := rfl
@[simp] theorem loadTimer_latches (s : State) : (loadTimer s).latches = s.latches := rfl
@[simp] theorem loadTimer_pulseOk (s : State) : (loadTimer s).pulseOk = s.pulseOk := rfl
@[simp] theorem loadTimer_mem (s : State) : (loadTimer s).mem = s.mem := rfl
@[simp] theorem loadTimer_draws (s : State) : (loadTimer s).draws = s.draws := rfl
@[simp] theorem loadTimer_host (s : State) : (loadTimer s).host = s.host := rfl
@[simp] theorem loadTimer_trace (s : State) : (loadTimer s).trace = s.trace := rfl
@[simp] theorem loadTimer_env (s : State) : (loadTimer s).env = s.env := rfl

/-! ### `clearPulses` -/

@[simp] theorem clearPulses_params (s : State) : (clearPulses s).params = s.params := rfl
@[simp] theorem clearPulses_cp (s : State) : (clearPulses s).cp = s.cp := rfl
@[simp] theorem clearPulses_err (s : State) : (clearPulses s).err = s.err := rfl
@[simp] theorem clearPulses_hdrCnt (s : State) : (clearPulses s).hdrCnt = s.hdrCnt := rfl
@[simp] theorem clearPulses_hdrLo (s : State) : (clearPulses s).hdrLo = s.hdrLo := rfl
@[simp] theorem clearPulses_wphase (s : State) : (clearPulses s).wphase = s.wphase := rfl
@[simp] theorem clearPulses_sphase (s : State) : (clearPulses s).sphase = s.sphase := rfl
@[simp] theorem clearPulses_sess (s : State) : (clearPulses s).sess = s.sess := rfl
@[simp] theorem clearPulses_tEnd (s : State) : (clearPulses s).tEnd = s.tEnd := rfl
@[simp] theorem clearPulses_wr (s : State) : (clearPulses s).wr = s.wr := rfl
@[simp] theorem clearPulses_wrRet (s : State) : (clearPulses s).wrRet = s.wrRet := rfl
@[simp] theorem clearPulses_lines (s : State) : (clearPulses s).lines = s.lines := rfl
@[simp] theorem clearPulses_res (s : State) : (clearPulses s).res = s.res := rfl
@[simp] theorem clearPulses_warnTimeout (s : State) : (clearPulses s).warnTimeout = false := rfl
@[simp] theorem clearPulses_resValid (s : State) : (clearPulses s).resValid = false := rfl
@[simp] theorem clearPulses_now (s : State) : (clearPulses s).now = s.now := rfl
@[simp] theorem clearPulses_timer (s : State) : (clearPulses s).timer = s.timer := rfl
@[simp] theorem clearPulses_ports (s : State) : (clearPulses s).ports = s.ports := rfl
@[simp] theorem clearPulses_rx (s : State) : (clearPulses s).rx = s.rx := rfl
@[simp] theorem clearPulses_tx (s : State) : (clearPulses s).tx = s.tx := rfl
@[simp] theorem clearPulses_latches (s : State) : (clearPulses s).latches = s.latches := rfl
@[simp] theorem clearPulses_pulseOk (s : State) : (clearPulses s).pulseOk = s.pulseOk := rfl
@[simp] theorem clearPulses_mem (s : State) : (clearPulses s).mem = s.mem := rfl
@[simp] theorem clearPulses_draws (s : State) : (clearPulses s).draws = s.draws := rfl
@[simp] theorem clearPulses_host (s : State) : (clearPulses s).host = s.host := rfl
@[simp] theorem clearPulses_trace (s : State) : (clearPulses s).trace = s.trace := rfl
@[simp] theorem clearPulses_env (s : State) : (clearPulses s).env = s.env := rfl

/-! ### `storeRam` -/

@[simp] theorem storeRam_params (a : Addr) (b : Byte) (s : State) : (storeRam a b s).params = s.params := rfl
@[simp] theorem storeRam_cp (a : Addr) (b : Byte) (s : State) : (storeRam a b s).cp = s.cp := rfl
@[simp] theorem storeRam_err (a : Addr) (b : Byte) (s : State) : (storeRam a b s).err = s.err := rfl
@[simp] theorem storeRam_hdrCnt (a : Addr) (b : Byte) (s : State) : (storeRam a b s).hdrCnt = s.hdrCnt := rfl
@[simp] theorem storeRam_hdrLo (a : Addr) (b : Byte) (s : State) : (storeRam a b s).hdrLo = s.hdrLo := rfl
@[simp] theorem storeRam_wphase (a : Addr) (b : Byte) (s : State) : (storeRam a b s).wphase = s.wphase := rfl
@[simp] theorem storeRam_sphase (a : Addr) (b : Byte) (s : State) : (storeRam a b s).sphase = s.sphase := rfl
@[simp] theorem storeRam_sess (a : Addr) (b : Byte) (s : State) : (storeRam a b s).sess = s.sess := rfl
@[simp] theorem storeRam_tEnd (a : Addr) (b : Byte) (s : State) : (storeRam a b s).tEnd = s.tEnd := rfl
@[simp] theorem storeRam_wr (a : Addr) (b : Byte) (s : State) : (storeRam a b s).wr = s.wr := rfl
@[simp] theorem storeRam_wrRet (a : Addr) (b : Byte) (s : State) : (storeRam a b s).wrRet = s.wrRet := rfl
@[simp] theorem storeRam_lines (a : Addr) (b : Byte) (s : State) : (storeRam a b s).lines = s.lines := rfl
@[simp] theorem storeRam_res (a : Addr) (b : Byte) (s : State) : (storeRam a b s).res = s.res := rfl
@[simp] theorem storeRam_warnTimeout (a : Addr) (b : Byte) (s : State) :
    (storeRam a b s).warnTimeout = s.warnTimeout := rfl
@[simp] theorem storeRam_resValid (a : Addr) (b : Byte) (s : State) : (storeRam a b s).resValid = s.resValid := rfl
@[simp] theorem storeRam_now (a : Addr) (b : Byte) (s : State) : (storeRam a b s).now = s.now := rfl
@[simp] theorem storeRam_timer (a : Addr) (b : Byte) (s : State) : (storeRam a b s).timer = s.timer := rfl
@[simp] theorem storeRam_ports (a : Addr) (b : Byte) (s : State) : (storeRam a b s).ports = s.ports := rfl
@[simp] theorem storeRam_rx (a : Addr) (b : Byte) (s : State) : (storeRam a b s).rx = s.rx := rfl
@[simp] theorem storeRam_tx (a : Addr) (b : Byte) (s : State) : (storeRam a b s).tx = s.tx := rfl
@[simp] theorem storeRam_latches (a : Addr) (b : Byte) (s : State) : (storeRam a b s).latches = s.latches := rfl
@[simp] theorem storeRam_pulseOk (a : Addr) (b : Byte) (s : State) : (storeRam a b s).pulseOk = s.pulseOk := rfl
@[simp] theorem storeRam_mem (a : Addr) (b : Byte) (s : State) :
    (storeRam a b s).mem = Memory.write s.mem a.toNat b := rfl
@[simp] theorem storeRam_draws (a : Addr) (b : Byte) (s : State) : (storeRam a b s).draws = s.draws := rfl
@[simp] theorem storeRam_host (a : Addr) (b : Byte) (s : State) : (storeRam a b s).host = s.host := rfl
@[simp] theorem storeRam_trace (a : Addr) (b : Byte) (s : State) : (storeRam a b s).trace = s.trace := rfl
@[simp] theorem storeRam_env (a : Addr) (b : Byte) (s : State) : (storeRam a b s).env = s.env := rfl

/-! ### `raiseFailed` -/

@[simp] theorem raiseFailed_params (k : ErrKind) (s : State) : (raiseFailed k s).params = s.params := rfl
@[simp] theorem raiseFailed_cp (k : ErrKind) (s : State) : (raiseFailed k s).cp = .endRun := rfl
@[simp] theorem raiseFailed_err (k : ErrKind) (s : State) : (raiseFailed k s).err = k := rfl
@[simp] theorem raiseFailed_hdrCnt (k : ErrKind) (s : State) : (raiseFailed k s).hdrCnt = s.hdrCnt := rfl
@[simp] theorem raiseFailed_hdrLo (k : ErrKind) (s : State) : (raiseFailed k s).hdrLo = s.hdrLo := rfl
@[simp] theorem raiseFailed_wphase (k : ErrKind) (s : State) : (raiseFailed k s).wphase = s.wphase := rfl
@[simp] theorem raiseFailed_sphase (k : ErrKind) (s : State) : (raiseFailed k s).sphase = .eLoe := rfl
@[simp] theorem raiseFailed_sess (k : ErrKind) (s : State) : (raiseFailed k s).sess = s.sess := rfl
@[simp] theorem raiseFailed_tEnd (k : ErrKind) (s : State) : (raiseFailed k s).tEnd = stamp s.now := rfl
@[simp] theorem raiseFailed_wr (k : ErrKind) (s : State) : (raiseFailed k s).wr = s.wr := rfl
@[simp] theorem raiseFailed_wrRet (k : ErrKind) (s : State) : (raiseFailed k s).wrRet = s.wrRet := rfl
@[simp] theorem raiseFailed_lines (k : ErrKind) (s : State) : (raiseFailed k s).lines = s.lines := rfl
@[simp] theorem raiseFailed_res (k : ErrKind) (s : State) : (raiseFailed k s).res = s.res := rfl
@[simp] theorem raiseFailed_warnTimeout (k : ErrKind) (s : State) : (raiseFailed k s).warnTimeout = s.warnTimeout := rfl
@[simp] theorem raiseFailed_resValid (k : ErrKind) (s : State) : (raiseFailed k s).resValid = s.resValid := rfl
@[simp] theorem raiseFailed_now (k : ErrKind) (s : State) : (raiseFailed k s).now = s.now := rfl
@[simp] theorem raiseFailed_timer (k : ErrKind) (s : State) : (raiseFailed k s).timer = s.timer := rfl
@[simp] theorem raiseFailed_ports (k : ErrKind) (s : State) : (raiseFailed k s).ports = s.ports := rfl
@[simp] theorem raiseFailed_rx (k : ErrKind) (s : State) : (raiseFailed k s).rx = s.rx := rfl
@[simp] theorem raiseFailed_tx (k : ErrKind) (s : State) : (raiseFailed k s).tx = s.tx := rfl
@[simp] theorem raiseFailed_latches (k : ErrKind) (s : State) : (raiseFailed k s).latches = s.latches := rfl
@[simp] theorem raiseFailed_pulseOk (k : ErrKind) (s : State) : (raiseFailed k s).pulseOk = s.pulseOk := rfl
@[simp] theorem raiseFailed_mem (k : ErrKind) (s : State) : (raiseFailed k s).mem = s.mem := rfl
@[simp] theorem raiseFailed_draws (k : ErrKind) (s : State) : (raiseFailed k s).draws = s.draws := rfl
@[simp] theorem raiseFailed_host (k : ErrKind) (s : State) : (raiseFailed k s).host = s.host := rfl
@[simp] theorem raiseFailed_trace (k : ErrKind) (s : State) : (raiseFailed k s).trace = s.trace := rfl
@[simp] theorem raiseFailed_env (k : ErrKind) (s : State) : (raiseFailed k s).env = s.env := rfl

/-! ### `enterDone` -/

@[simp] theorem enterDone_params (s : State) : (enterDone s).params = s.params := rfl
@[simp] theorem enterDone_cp (s : State) : (enterDone s).cp = .endRun := rfl
@[simp] theorem enterDone_err (s : State) : (enterDone s).err = s.err := rfl
@[simp] theorem enterDone_hdrCnt (s : State) : (enterDone s).hdrCnt = s.hdrCnt := rfl
@[simp] theorem enterDone_hdrLo (s : State) : (enterDone s).hdrLo = s.hdrLo := rfl
@[simp] theorem enterDone_wphase (s : State) : (enterDone s).wphase = s.wphase := rfl
@[simp] theorem enterDone_sphase (s : State) : (enterDone s).sphase = .eLoe := rfl
@[simp] theorem enterDone_sess (s : State) : (enterDone s).sess = s.sess := rfl
@[simp] theorem enterDone_tEnd (s : State) : (enterDone s).tEnd = stamp s.now := rfl
@[simp] theorem enterDone_wr (s : State) : (enterDone s).wr = s.wr := rfl
@[simp] theorem enterDone_wrRet (s : State) : (enterDone s).wrRet = s.wrRet := rfl
@[simp] theorem enterDone_lines (s : State) : (enterDone s).lines = s.lines := rfl
@[simp] theorem enterDone_res (s : State) : (enterDone s).res = s.res := rfl
@[simp] theorem enterDone_warnTimeout (s : State) : (enterDone s).warnTimeout = s.warnTimeout := rfl
@[simp] theorem enterDone_resValid (s : State) : (enterDone s).resValid = s.resValid := rfl
@[simp] theorem enterDone_now (s : State) : (enterDone s).now = s.now := rfl
@[simp] theorem enterDone_timer (s : State) : (enterDone s).timer = s.timer := rfl
@[simp] theorem enterDone_ports (s : State) : (enterDone s).ports = s.ports := rfl
@[simp] theorem enterDone_rx (s : State) : (enterDone s).rx = s.rx := rfl
@[simp] theorem enterDone_tx (s : State) : (enterDone s).tx = s.tx := rfl
@[simp] theorem enterDone_latches (s : State) : (enterDone s).latches = s.latches := rfl
@[simp] theorem enterDone_pulseOk (s : State) : (enterDone s).pulseOk = s.pulseOk := rfl
@[simp] theorem enterDone_mem (s : State) : (enterDone s).mem = s.mem := rfl
@[simp] theorem enterDone_draws (s : State) : (enterDone s).draws = s.draws := rfl
@[simp] theorem enterDone_host (s : State) : (enterDone s).host = s.host := rfl
@[simp] theorem enterDone_trace (s : State) : (enterDone s).trace = s.trace := rfl
@[simp] theorem enterDone_env (s : State) : (enterDone s).env = s.env := rfl

/-! ### `hostSend` -/

@[simp] theorem hostSend_params (b : Byte) (s : State) : (hostSend b s).params = s.params := rfl
@[simp] theorem hostSend_cp (b : Byte) (s : State) : (hostSend b s).cp = s.cp := rfl
@[simp] theorem hostSend_err (b : Byte) (s : State) : (hostSend b s).err = s.err := rfl
@[simp] theorem hostSend_hdrCnt (b : Byte) (s : State) : (hostSend b s).hdrCnt = s.hdrCnt := rfl
@[simp] theorem hostSend_hdrLo (b : Byte) (s : State) : (hostSend b s).hdrLo = s.hdrLo := rfl
@[simp] theorem hostSend_wphase (b : Byte) (s : State) : (hostSend b s).wphase = s.wphase := rfl
@[simp] theorem hostSend_sphase (b : Byte) (s : State) : (hostSend b s).sphase = s.sphase := rfl
@[simp] theorem hostSend_sess (b : Byte) (s : State) : (hostSend b s).sess = s.sess := rfl
@[simp] theorem hostSend_tEnd (b : Byte) (s : State) : (hostSend b s).tEnd = s.tEnd := rfl
@[simp] theorem hostSend_wr (b : Byte) (s : State) : (hostSend b s).wr = s.wr := rfl
@[simp] theorem hostSend_wrRet (b : Byte) (s : State) : (hostSend b s).wrRet = s.wrRet := rfl
@[simp] theorem hostSend_lines (b : Byte) (s : State) : (hostSend b s).lines = s.lines := rfl
@[simp] theorem hostSend_res (b : Byte) (s : State) : (hostSend b s).res = s.res := rfl
@[simp] theorem hostSend_warnTimeout (b : Byte) (s : State) : (hostSend b s).warnTimeout = s.warnTimeout := rfl
@[simp] theorem hostSend_resValid (b : Byte) (s : State) : (hostSend b s).resValid = s.resValid := rfl
@[simp] theorem hostSend_now (b : Byte) (s : State) : (hostSend b s).now = s.now := rfl
@[simp] theorem hostSend_timer (b : Byte) (s : State) : (hostSend b s).timer = s.timer := rfl
@[simp] theorem hostSend_ports (b : Byte) (s : State) : (hostSend b s).ports = s.ports := rfl
@[simp] theorem hostSend_rx (b : Byte) (s : State) : (hostSend b s).rx = s.rx ++ [b] := rfl
@[simp] theorem hostSend_tx (b : Byte) (s : State) : (hostSend b s).tx = s.tx := rfl
@[simp] theorem hostSend_latches (b : Byte) (s : State) : (hostSend b s).latches = s.latches := rfl
@[simp] theorem hostSend_pulseOk (b : Byte) (s : State) : (hostSend b s).pulseOk = s.pulseOk := rfl
@[simp] theorem hostSend_mem (b : Byte) (s : State) : (hostSend b s).mem = s.mem := rfl
@[simp] theorem hostSend_draws (b : Byte) (s : State) : (hostSend b s).draws = s.draws := rfl
@[simp] theorem hostSend_host (b : Byte) (s : State) : (hostSend b s).host = s.host := rfl
@[simp] theorem hostSend_trace (b : Byte) (s : State) : (hostSend b s).trace = s.trace := rfl
@[simp] theorem hostSend_env (b : Byte) (s : State) : (hostSend b s).env = s.env := rfl

/-! ### `hostAt` -/

@[simp] theorem hostAt_params (p : HostPhase) (s : State) : (hostAt p s).params = s.params := rfl
@[simp] theorem hostAt_cp (p : HostPhase) (s : State) : (hostAt p s).cp = s.cp := rfl
@[simp] theorem hostAt_err (p : HostPhase) (s : State) : (hostAt p s).err = s.err := rfl
@[simp] theorem hostAt_hdrCnt (p : HostPhase) (s : State) : (hostAt p s).hdrCnt = s.hdrCnt := rfl
@[simp] theorem hostAt_hdrLo (p : HostPhase) (s : State) : (hostAt p s).hdrLo = s.hdrLo := rfl
@[simp] theorem hostAt_wphase (p : HostPhase) (s : State) : (hostAt p s).wphase = s.wphase := rfl
@[simp] theorem hostAt_sphase (p : HostPhase) (s : State) : (hostAt p s).sphase = s.sphase := rfl
@[simp] theorem hostAt_sess (p : HostPhase) (s : State) : (hostAt p s).sess = s.sess := rfl
@[simp] theorem hostAt_tEnd (p : HostPhase) (s : State) : (hostAt p s).tEnd = s.tEnd := rfl
@[simp] theorem hostAt_wr (p : HostPhase) (s : State) : (hostAt p s).wr = s.wr := rfl
@[simp] theorem hostAt_wrRet (p : HostPhase) (s : State) : (hostAt p s).wrRet = s.wrRet := rfl
@[simp] theorem hostAt_lines (p : HostPhase) (s : State) : (hostAt p s).lines = s.lines := rfl
@[simp] theorem hostAt_res (p : HostPhase) (s : State) : (hostAt p s).res = s.res := rfl
@[simp] theorem hostAt_warnTimeout (p : HostPhase) (s : State) : (hostAt p s).warnTimeout = s.warnTimeout := rfl
@[simp] theorem hostAt_resValid (p : HostPhase) (s : State) : (hostAt p s).resValid = s.resValid := rfl
@[simp] theorem hostAt_now (p : HostPhase) (s : State) : (hostAt p s).now = s.now := rfl
@[simp] theorem hostAt_timer (p : HostPhase) (s : State) : (hostAt p s).timer = s.timer := rfl
@[simp] theorem hostAt_ports (p : HostPhase) (s : State) : (hostAt p s).ports = s.ports := rfl
@[simp] theorem hostAt_rx (p : HostPhase) (s : State) : (hostAt p s).rx = s.rx := rfl
@[simp] theorem hostAt_tx (p : HostPhase) (s : State) : (hostAt p s).tx = s.tx := rfl
@[simp] theorem hostAt_latches (p : HostPhase) (s : State) : (hostAt p s).latches = s.latches := rfl
@[simp] theorem hostAt_pulseOk (p : HostPhase) (s : State) : (hostAt p s).pulseOk = s.pulseOk := rfl
@[simp] theorem hostAt_mem (p : HostPhase) (s : State) : (hostAt p s).mem = s.mem := rfl
@[simp] theorem hostAt_draws (p : HostPhase) (s : State) : (hostAt p s).draws = s.draws := rfl
@[simp] theorem hostAt_host (p : HostPhase) (s : State) : (hostAt p s).host = { s.host with phase := p } := rfl
@[simp] theorem hostAt_trace (p : HostPhase) (s : State) : (hostAt p s).trace = s.trace := rfl
@[simp] theorem hostAt_env (p : HostPhase) (s : State) : (hostAt p s).env = s.env := rfl

/-! ### `hostEnd` -/

@[simp] theorem hostEnd_params (r : HostResult) (s : State) : (hostEnd r s).params = s.params := rfl
@[simp] theorem hostEnd_cp (r : HostResult) (s : State) : (hostEnd r s).cp = s.cp := rfl
@[simp] theorem hostEnd_err (r : HostResult) (s : State) : (hostEnd r s).err = s.err := rfl
@[simp] theorem hostEnd_hdrCnt (r : HostResult) (s : State) : (hostEnd r s).hdrCnt = s.hdrCnt := rfl
@[simp] theorem hostEnd_hdrLo (r : HostResult) (s : State) : (hostEnd r s).hdrLo = s.hdrLo := rfl
@[simp] theorem hostEnd_wphase (r : HostResult) (s : State) : (hostEnd r s).wphase = s.wphase := rfl
@[simp] theorem hostEnd_sphase (r : HostResult) (s : State) : (hostEnd r s).sphase = s.sphase := rfl
@[simp] theorem hostEnd_sess (r : HostResult) (s : State) : (hostEnd r s).sess = s.sess := rfl
@[simp] theorem hostEnd_tEnd (r : HostResult) (s : State) : (hostEnd r s).tEnd = s.tEnd := rfl
@[simp] theorem hostEnd_wr (r : HostResult) (s : State) : (hostEnd r s).wr = s.wr := rfl
@[simp] theorem hostEnd_wrRet (r : HostResult) (s : State) : (hostEnd r s).wrRet = s.wrRet := rfl
@[simp] theorem hostEnd_lines (r : HostResult) (s : State) : (hostEnd r s).lines = s.lines := rfl
@[simp] theorem hostEnd_res (r : HostResult) (s : State) : (hostEnd r s).res = s.res := rfl
@[simp] theorem hostEnd_warnTimeout (r : HostResult) (s : State) : (hostEnd r s).warnTimeout = s.warnTimeout := rfl
@[simp] theorem hostEnd_resValid (r : HostResult) (s : State) : (hostEnd r s).resValid = s.resValid := rfl
@[simp] theorem hostEnd_now (r : HostResult) (s : State) : (hostEnd r s).now = s.now := rfl
@[simp] theorem hostEnd_timer (r : HostResult) (s : State) : (hostEnd r s).timer = s.timer := rfl
@[simp] theorem hostEnd_ports (r : HostResult) (s : State) : (hostEnd r s).ports = s.ports := rfl
@[simp] theorem hostEnd_rx (r : HostResult) (s : State) : (hostEnd r s).rx = s.rx := rfl
@[simp] theorem hostEnd_tx (r : HostResult) (s : State) : (hostEnd r s).tx = s.tx := rfl
@[simp] theorem hostEnd_latches (r : HostResult) (s : State) : (hostEnd r s).latches = s.latches := rfl
@[simp] theorem hostEnd_pulseOk (r : HostResult) (s : State) : (hostEnd r s).pulseOk = s.pulseOk := rfl
@[simp] theorem hostEnd_mem (r : HostResult) (s : State) : (hostEnd r s).mem = s.mem := rfl
@[simp] theorem hostEnd_draws (r : HostResult) (s : State) : (hostEnd r s).draws = s.draws := rfl
@[simp] theorem hostEnd_host (r : HostResult) (s : State) :
    (hostEnd r s).host = { s.host with phase := .idle, result := r } := rfl
@[simp] theorem hostEnd_trace (r : HostResult) (s : State) : (hostEnd r s).trace = s.trace := rfl
@[simp] theorem hostEnd_env (r : HostResult) (s : State) : (hostEnd r s).env = s.env := rfl

/-! ### `acceptWrite` -/

@[simp] theorem acceptWrite_params (s : State) : (acceptWrite s).params = s.params := rfl
@[simp] theorem acceptWrite_cp (s : State) : (acceptWrite s).cp = .strWait := rfl
@[simp] theorem acceptWrite_err (s : State) : (acceptWrite s).err = s.err := rfl
@[simp] theorem acceptWrite_hdrCnt (s : State) : (acceptWrite s).hdrCnt = s.hdrCnt := rfl
@[simp] theorem acceptWrite_hdrLo (s : State) : (acceptWrite s).hdrLo = s.hdrLo := rfl
@[simp] theorem acceptWrite_wphase (s : State) : (acceptWrite s).wphase = .wIdle := rfl
@[simp] theorem acceptWrite_sphase (s : State) : (acceptWrite s).sphase = s.sphase := rfl
@[simp] theorem acceptWrite_sess (s : State) :
    (acceptWrite s).sess =
      { s.sess with cursor := nextCursor s.sess.cursor, bytesWritten := nextCount s.sess.bytesWritten } := rfl
@[simp] theorem acceptWrite_tEnd (s : State) : (acceptWrite s).tEnd = s.tEnd := rfl
@[simp] theorem acceptWrite_wr (s : State) : (acceptWrite s).wr = s.wr := rfl
@[simp] theorem acceptWrite_wrRet (s : State) : (acceptWrite s).wrRet = s.wrRet := rfl
@[simp] theorem acceptWrite_lines (s : State) : (acceptWrite s).lines = s.lines := rfl
@[simp] theorem acceptWrite_res (s : State) : (acceptWrite s).res = s.res := rfl
@[simp] theorem acceptWrite_warnTimeout (s : State) : (acceptWrite s).warnTimeout = s.warnTimeout := rfl
@[simp] theorem acceptWrite_resValid (s : State) : (acceptWrite s).resValid = s.resValid := rfl
@[simp] theorem acceptWrite_now (s : State) : (acceptWrite s).now = s.now := rfl
@[simp] theorem acceptWrite_timer (s : State) : (acceptWrite s).timer = { loadedAt := s.now, expired := false } := rfl
@[simp] theorem acceptWrite_ports (s : State) : (acceptWrite s).ports = s.ports := rfl
@[simp] theorem acceptWrite_rx (s : State) : (acceptWrite s).rx = s.rx := rfl
@[simp] theorem acceptWrite_tx (s : State) : (acceptWrite s).tx = s.tx := rfl
@[simp] theorem acceptWrite_latches (s : State) : (acceptWrite s).latches = s.latches := rfl
@[simp] theorem acceptWrite_pulseOk (s : State) : (acceptWrite s).pulseOk = s.pulseOk := rfl
@[simp] theorem acceptWrite_mem (s : State) : (acceptWrite s).mem = s.mem := rfl
@[simp] theorem acceptWrite_draws (s : State) : (acceptWrite s).draws = s.draws := rfl
@[simp] theorem acceptWrite_host (s : State) : (acceptWrite s).host = s.host := rfl
@[simp] theorem acceptWrite_trace (s : State) : (acceptWrite s).trace = s.trace := rfl
@[simp] theorem acceptWrite_env (s : State) : (acceptWrite s).env = s.env := rfl

/-! ### `rejectWrite` -/

@[simp] theorem rejectWrite_params (s : State) : (rejectWrite s).params = s.params := rfl
@[simp] theorem rejectWrite_cp (s : State) : (rejectWrite s).cp = .endRun := rfl
@[simp] theorem rejectWrite_err (s : State) : (rejectWrite s).err = .busError := rfl
@[simp] theorem rejectWrite_hdrCnt (s : State) : (rejectWrite s).hdrCnt = s.hdrCnt := rfl
@[simp] theorem rejectWrite_hdrLo (s : State) : (rejectWrite s).hdrLo = s.hdrLo := rfl
@[simp] theorem rejectWrite_wphase (s : State) : (rejectWrite s).wphase = .wIdle := rfl
@[simp] theorem rejectWrite_sphase (s : State) : (rejectWrite s).sphase = .eLoe := rfl
@[simp] theorem rejectWrite_sess (s : State) : (rejectWrite s).sess = s.sess := rfl
@[simp] theorem rejectWrite_tEnd (s : State) : (rejectWrite s).tEnd = stamp s.now := rfl
@[simp] theorem rejectWrite_wr (s : State) : (rejectWrite s).wr = s.wr := rfl
@[simp] theorem rejectWrite_wrRet (s : State) : (rejectWrite s).wrRet = s.wrRet := rfl
@[simp] theorem rejectWrite_lines (s : State) : (rejectWrite s).lines = s.lines := rfl
@[simp] theorem rejectWrite_res (s : State) : (rejectWrite s).res = s.res := rfl
@[simp] theorem rejectWrite_warnTimeout (s : State) : (rejectWrite s).warnTimeout = s.warnTimeout := rfl
@[simp] theorem rejectWrite_resValid (s : State) : (rejectWrite s).resValid = s.resValid := rfl
@[simp] theorem rejectWrite_now (s : State) : (rejectWrite s).now = s.now := rfl
@[simp] theorem rejectWrite_timer (s : State) : (rejectWrite s).timer = s.timer := rfl
@[simp] theorem rejectWrite_ports (s : State) : (rejectWrite s).ports = s.ports := rfl
@[simp] theorem rejectWrite_rx (s : State) : (rejectWrite s).rx = s.rx := rfl
@[simp] theorem rejectWrite_tx (s : State) : (rejectWrite s).tx = s.tx := rfl
@[simp] theorem rejectWrite_latches (s : State) : (rejectWrite s).latches = s.latches := rfl
@[simp] theorem rejectWrite_pulseOk (s : State) : (rejectWrite s).pulseOk = s.pulseOk := rfl
@[simp] theorem rejectWrite_mem (s : State) : (rejectWrite s).mem = s.mem := rfl
@[simp] theorem rejectWrite_draws (s : State) : (rejectWrite s).draws = s.draws := rfl
@[simp] theorem rejectWrite_host (s : State) : (rejectWrite s).host = s.host := rfl
@[simp] theorem rejectWrite_trace (s : State) : (rejectWrite s).trace = s.trace := rfl
@[simp] theorem rejectWrite_env (s : State) : (rejectWrite s).env = s.env := rfl

/-! ### `openSession` -/

@[simp] theorem openSession_params (s : State) : (openSession s).params = s.params := rfl
@[simp] theorem openSession_cp (s : State) : (openSession s).cp = .strWait := rfl
@[simp] theorem openSession_err (s : State) : (openSession s).err = s.err := rfl
@[simp] theorem openSession_hdrCnt (s : State) : (openSession s).hdrCnt = s.hdrCnt := rfl
@[simp] theorem openSession_hdrLo (s : State) : (openSession s).hdrLo = s.hdrLo := rfl
@[simp] theorem openSession_wphase (s : State) : (openSession s).wphase = s.wphase := rfl
@[simp] theorem openSession_sphase (s : State) : (openSession s).sphase = .sIdle := rfl
@[simp] theorem openSession_sess (s : State) :
    (openSession s).sess =
      { s.sess with cursor := s.sess.startAddress, bytesWritten := 0, startedAt := stamp s.now, valid := true } := rfl
@[simp] theorem openSession_tEnd (s : State) : (openSession s).tEnd = s.tEnd := rfl
@[simp] theorem openSession_wr (s : State) : (openSession s).wr = s.wr := rfl
@[simp] theorem openSession_wrRet (s : State) : (openSession s).wrRet = s.wrRet := rfl
@[simp] theorem openSession_lines (s : State) : (openSession s).lines = s.lines := rfl
@[simp] theorem openSession_res (s : State) : (openSession s).res = s.res := rfl
@[simp] theorem openSession_warnTimeout (s : State) : (openSession s).warnTimeout = s.warnTimeout := rfl
@[simp] theorem openSession_resValid (s : State) : (openSession s).resValid = s.resValid := rfl
@[simp] theorem openSession_now (s : State) : (openSession s).now = s.now := rfl
@[simp] theorem openSession_timer (s : State) : (openSession s).timer = { loadedAt := s.now, expired := false } := rfl
@[simp] theorem openSession_ports (s : State) : (openSession s).ports = s.ports := rfl
@[simp] theorem openSession_rx (s : State) : (openSession s).rx = s.rx := rfl
@[simp] theorem openSession_tx (s : State) : (openSession s).tx = s.tx := rfl
@[simp] theorem openSession_latches (s : State) : (openSession s).latches = s.latches := rfl
@[simp] theorem openSession_pulseOk (s : State) : (openSession s).pulseOk = s.pulseOk := rfl
@[simp] theorem openSession_mem (s : State) : (openSession s).mem = s.mem := rfl
@[simp] theorem openSession_draws (s : State) : (openSession s).draws = s.draws := rfl
@[simp] theorem openSession_host (s : State) : (openSession s).host = s.host := rfl
@[simp] theorem openSession_trace (s : State) : (openSession s).trace = s.trace := rfl
@[simp] theorem openSession_env (s : State) : (openSession s).env = s.env := rfl

/-! ### `returnToIdle` -/

@[simp] theorem returnToIdle_params (s : State) : (returnToIdle s).params = s.params := rfl
@[simp] theorem returnToIdle_cp (s : State) : (returnToIdle s).cp = .idleWait := rfl
@[simp] theorem returnToIdle_err (s : State) : (returnToIdle s).err = .none := rfl
@[simp] theorem returnToIdle_hdrCnt (s : State) : (returnToIdle s).hdrCnt = s.hdrCnt := rfl
@[simp] theorem returnToIdle_hdrLo (s : State) : (returnToIdle s).hdrLo = s.hdrLo := rfl
@[simp] theorem returnToIdle_wphase (s : State) : (returnToIdle s).wphase = s.wphase := rfl
@[simp] theorem returnToIdle_sphase (s : State) : (returnToIdle s).sphase = s.sphase := rfl
@[simp] theorem returnToIdle_sess (s : State) : (returnToIdle s).sess = Session.cleared := rfl
@[simp] theorem returnToIdle_tEnd (s : State) : (returnToIdle s).tEnd = s.tEnd := rfl
@[simp] theorem returnToIdle_wr (s : State) : (returnToIdle s).wr = s.wr := rfl
@[simp] theorem returnToIdle_wrRet (s : State) : (returnToIdle s).wrRet = s.wrRet := rfl
@[simp] theorem returnToIdle_lines (s : State) : (returnToIdle s).lines = s.lines := rfl
@[simp] theorem returnToIdle_res (s : State) : (returnToIdle s).res = resultOf s := rfl
@[simp] theorem returnToIdle_warnTimeout (s : State) : (returnToIdle s).warnTimeout = s.warnTimeout := rfl
@[simp] theorem returnToIdle_resValid (s : State) : (returnToIdle s).resValid = true := rfl
@[simp] theorem returnToIdle_now (s : State) : (returnToIdle s).now = s.now := rfl
@[simp] theorem returnToIdle_timer (s : State) : (returnToIdle s).timer = { loadedAt := s.now, expired := false } := rfl
@[simp] theorem returnToIdle_ports (s : State) : (returnToIdle s).ports = s.ports := rfl
@[simp] theorem returnToIdle_rx (s : State) : (returnToIdle s).rx = s.rx := rfl
@[simp] theorem returnToIdle_tx (s : State) : (returnToIdle s).tx = s.tx := rfl
@[simp] theorem returnToIdle_latches (s : State) : (returnToIdle s).latches = s.latches := rfl
@[simp] theorem returnToIdle_pulseOk (s : State) : (returnToIdle s).pulseOk = s.pulseOk := rfl
@[simp] theorem returnToIdle_mem (s : State) : (returnToIdle s).mem = s.mem := rfl
@[simp] theorem returnToIdle_draws (s : State) : (returnToIdle s).draws = s.draws := rfl
@[simp] theorem returnToIdle_host (s : State) : (returnToIdle s).host = s.host := rfl
@[simp] theorem returnToIdle_trace (s : State) : (returnToIdle s).trace = s.trace ++ [.result (resultOf s)] := rfl
@[simp] theorem returnToIdle_env (s : State) : (returnToIdle s).env = s.env := rfl

/-! ### `setInputs` -/

@[simp] theorem setInputs_params (dt : Nat) (p : InPorts) (x : Bool) (s : State) :
    (setInputs dt p x s).params = s.params := rfl
@[simp] theorem setInputs_cp (dt : Nat) (p : InPorts) (x : Bool) (s : State) : (setInputs dt p x s).cp = s.cp := rfl
@[simp] theorem setInputs_err (dt : Nat) (p : InPorts) (x : Bool) (s : State) : (setInputs dt p x s).err = s.err := rfl
@[simp] theorem setInputs_hdrCnt (dt : Nat) (p : InPorts) (x : Bool) (s : State) :
    (setInputs dt p x s).hdrCnt = s.hdrCnt := rfl
@[simp] theorem setInputs_hdrLo (dt : Nat) (p : InPorts) (x : Bool) (s : State) :
    (setInputs dt p x s).hdrLo = s.hdrLo := rfl
@[simp] theorem setInputs_wphase (dt : Nat) (p : InPorts) (x : Bool) (s : State) :
    (setInputs dt p x s).wphase = s.wphase := rfl
@[simp] theorem setInputs_sphase (dt : Nat) (p : InPorts) (x : Bool) (s : State) :
    (setInputs dt p x s).sphase = s.sphase := rfl
@[simp] theorem setInputs_sess (dt : Nat) (p : InPorts) (x : Bool) (s : State) :
    (setInputs dt p x s).sess = s.sess := rfl
@[simp] theorem setInputs_tEnd (dt : Nat) (p : InPorts) (x : Bool) (s : State) :
    (setInputs dt p x s).tEnd = s.tEnd := rfl
@[simp] theorem setInputs_wr (dt : Nat) (p : InPorts) (x : Bool) (s : State) : (setInputs dt p x s).wr = s.wr := rfl
@[simp] theorem setInputs_wrRet (dt : Nat) (p : InPorts) (x : Bool) (s : State) :
    (setInputs dt p x s).wrRet = s.wrRet := rfl
@[simp] theorem setInputs_lines (dt : Nat) (p : InPorts) (x : Bool) (s : State) :
    (setInputs dt p x s).lines = s.lines := rfl
@[simp] theorem setInputs_res (dt : Nat) (p : InPorts) (x : Bool) (s : State) : (setInputs dt p x s).res = s.res := rfl
@[simp] theorem setInputs_warnTimeout (dt : Nat) (p : InPorts) (x : Bool) (s : State) :
    (setInputs dt p x s).warnTimeout = s.warnTimeout := rfl
@[simp] theorem setInputs_resValid (dt : Nat) (p : InPorts) (x : Bool) (s : State) :
    (setInputs dt p x s).resValid = s.resValid := rfl
@[simp] theorem setInputs_now (dt : Nat) (p : InPorts) (x : Bool) (s : State) :
    (setInputs dt p x s).now = s.now + dt := rfl
@[simp] theorem setInputs_timer (dt : Nat) (p : InPorts) (x : Bool) (s : State) :
    (setInputs dt p x s).timer = { s.timer with expired := s.timer.expired || x } := rfl
@[simp] theorem setInputs_ports (dt : Nat) (p : InPorts) (x : Bool) (s : State) : (setInputs dt p x s).ports = p := rfl
@[simp] theorem setInputs_rx (dt : Nat) (p : InPorts) (x : Bool) (s : State) : (setInputs dt p x s).rx = s.rx := rfl
@[simp] theorem setInputs_tx (dt : Nat) (p : InPorts) (x : Bool) (s : State) : (setInputs dt p x s).tx = s.tx := rfl
@[simp] theorem setInputs_latches (dt : Nat) (p : InPorts) (x : Bool) (s : State) :
    (setInputs dt p x s).latches = s.latches := rfl
@[simp] theorem setInputs_pulseOk (dt : Nat) (p : InPorts) (x : Bool) (s : State) :
    (setInputs dt p x s).pulseOk = s.pulseOk := rfl
@[simp] theorem setInputs_mem (dt : Nat) (p : InPorts) (x : Bool) (s : State) : (setInputs dt p x s).mem = s.mem := rfl
@[simp] theorem setInputs_draws (dt : Nat) (p : InPorts) (x : Bool) (s : State) :
    (setInputs dt p x s).draws = s.draws := rfl
@[simp] theorem setInputs_host (dt : Nat) (p : InPorts) (x : Bool) (s : State) :
    (setInputs dt p x s).host = s.host := rfl
@[simp] theorem setInputs_trace (dt : Nat) (p : InPorts) (x : Bool) (s : State) :
    (setInputs dt p x s).trace = s.trace := rfl
@[simp] theorem setInputs_env (dt : Nat) (p : InPorts) (x : Bool) (s : State) : (setInputs dt p x s).env = s.env := rfl

/-! ### `wPhaseStep`: what it leaves alone -/

@[simp] theorem wPhaseStep_params (p : WPhase) (s : State) : (wPhaseStep p s).params = s.params := by cases p <;> rfl
@[simp] theorem wPhaseStep_cp (p : WPhase) (s : State) : (wPhaseStep p s).cp = s.cp := by cases p <;> rfl
@[simp] theorem wPhaseStep_err (p : WPhase) (s : State) : (wPhaseStep p s).err = s.err := by cases p <;> rfl
@[simp] theorem wPhaseStep_hdrCnt (p : WPhase) (s : State) : (wPhaseStep p s).hdrCnt = s.hdrCnt := by cases p <;> rfl
@[simp] theorem wPhaseStep_hdrLo (p : WPhase) (s : State) : (wPhaseStep p s).hdrLo = s.hdrLo := by cases p <;> rfl
@[simp] theorem wPhaseStep_wphase (p : WPhase) (s : State) :
    (wPhaseStep p s).wphase = nextWPhase p := by cases p <;> rfl
@[simp] theorem wPhaseStep_sphase (p : WPhase) (s : State) : (wPhaseStep p s).sphase = s.sphase := by cases p <;> rfl
@[simp] theorem wPhaseStep_sess (p : WPhase) (s : State) : (wPhaseStep p s).sess = s.sess := by cases p <;> rfl
@[simp] theorem wPhaseStep_tEnd (p : WPhase) (s : State) : (wPhaseStep p s).tEnd = s.tEnd := by cases p <;> rfl
@[simp] theorem wPhaseStep_wr (p : WPhase) (s : State) : (wPhaseStep p s).wr = s.wr := by cases p <;> rfl
@[simp] theorem wPhaseStep_wrRet (p : WPhase) (s : State) : (wPhaseStep p s).wrRet = s.wrRet := by cases p <;> rfl
@[simp] theorem wPhaseStep_res (p : WPhase) (s : State) : (wPhaseStep p s).res = s.res := by cases p <;> rfl
@[simp] theorem wPhaseStep_warnTimeout (p : WPhase) (s : State) :
    (wPhaseStep p s).warnTimeout = s.warnTimeout := by cases p <;> rfl
@[simp] theorem wPhaseStep_resValid (p : WPhase) (s : State) :
    (wPhaseStep p s).resValid = s.resValid := by cases p <;> rfl
@[simp] theorem wPhaseStep_timer (p : WPhase) (s : State) : (wPhaseStep p s).timer = s.timer := by cases p <;> rfl
@[simp] theorem wPhaseStep_ports (p : WPhase) (s : State) : (wPhaseStep p s).ports = s.ports := by cases p <;> rfl
@[simp] theorem wPhaseStep_rx (p : WPhase) (s : State) : (wPhaseStep p s).rx = s.rx := by cases p <;> rfl
@[simp] theorem wPhaseStep_tx (p : WPhase) (s : State) : (wPhaseStep p s).tx = s.tx := by cases p <;> rfl
@[simp] theorem wPhaseStep_draws (p : WPhase) (s : State) : (wPhaseStep p s).draws = s.draws := by cases p <;> rfl
@[simp] theorem wPhaseStep_host (p : WPhase) (s : State) : (wPhaseStep p s).host = s.host := by cases p <;> rfl
@[simp] theorem wPhaseStep_env (p : WPhase) (s : State) : (wPhaseStep p s).env = s.env := by cases p <;> rfl

/-! ### `sPhaseStep`: what it leaves alone -/

@[simp] theorem sPhaseStep_params (p : SPhase) (s : State) : (sPhaseStep p s).params = s.params := by cases p <;> rfl
@[simp] theorem sPhaseStep_cp (p : SPhase) (s : State) : (sPhaseStep p s).cp = s.cp := by cases p <;> rfl
@[simp] theorem sPhaseStep_err (p : SPhase) (s : State) : (sPhaseStep p s).err = s.err := by cases p <;> rfl
@[simp] theorem sPhaseStep_hdrCnt (p : SPhase) (s : State) : (sPhaseStep p s).hdrCnt = s.hdrCnt := by cases p <;> rfl
@[simp] theorem sPhaseStep_hdrLo (p : SPhase) (s : State) : (sPhaseStep p s).hdrLo = s.hdrLo := by cases p <;> rfl
@[simp] theorem sPhaseStep_wphase (p : SPhase) (s : State) : (sPhaseStep p s).wphase = s.wphase := by cases p <;> rfl
@[simp] theorem sPhaseStep_sphase (p : SPhase) (s : State) :
    (sPhaseStep p s).sphase = nextSPhase p := by cases p <;> rfl
@[simp] theorem sPhaseStep_sess (p : SPhase) (s : State) : (sPhaseStep p s).sess = s.sess := by cases p <;> rfl
@[simp] theorem sPhaseStep_tEnd (p : SPhase) (s : State) : (sPhaseStep p s).tEnd = s.tEnd := by cases p <;> rfl
@[simp] theorem sPhaseStep_wr (p : SPhase) (s : State) : (sPhaseStep p s).wr = s.wr := by cases p <;> rfl
@[simp] theorem sPhaseStep_wrRet (p : SPhase) (s : State) : (sPhaseStep p s).wrRet = s.wrRet := by cases p <;> rfl
@[simp] theorem sPhaseStep_res (p : SPhase) (s : State) : (sPhaseStep p s).res = s.res := by cases p <;> rfl
@[simp] theorem sPhaseStep_warnTimeout (p : SPhase) (s : State) :
    (sPhaseStep p s).warnTimeout = s.warnTimeout := by cases p <;> rfl
@[simp] theorem sPhaseStep_resValid (p : SPhase) (s : State) :
    (sPhaseStep p s).resValid = s.resValid := by cases p <;> rfl
@[simp] theorem sPhaseStep_timer (p : SPhase) (s : State) : (sPhaseStep p s).timer = s.timer := by cases p <;> rfl
@[simp] theorem sPhaseStep_ports (p : SPhase) (s : State) : (sPhaseStep p s).ports = s.ports := by cases p <;> rfl
@[simp] theorem sPhaseStep_rx (p : SPhase) (s : State) : (sPhaseStep p s).rx = s.rx := by cases p <;> rfl
@[simp] theorem sPhaseStep_tx (p : SPhase) (s : State) : (sPhaseStep p s).tx = s.tx := by cases p <;> rfl
@[simp] theorem sPhaseStep_latches (p : SPhase) (s : State) : (sPhaseStep p s).latches = s.latches := by cases p <;> rfl
@[simp] theorem sPhaseStep_mem (p : SPhase) (s : State) : (sPhaseStep p s).mem = s.mem := by cases p <;> rfl
@[simp] theorem sPhaseStep_draws (p : SPhase) (s : State) : (sPhaseStep p s).draws = s.draws := by cases p <;> rfl
@[simp] theorem sPhaseStep_host (p : SPhase) (s : State) : (sPhaseStep p s).host = s.host := by cases p <;> rfl
@[simp] theorem sPhaseStep_env (p : SPhase) (s : State) : (sPhaseStep p s).env = s.env := by cases p <;> rfl

/-! ### `takeEvent`: what it leaves alone -/

@[simp] theorem takeEvent_params (e : Event) (s : State) : (takeEvent e s).params = s.params := by cases e <;> rfl
@[simp] theorem takeEvent_cp (e : Event) (s : State) : (takeEvent e s).cp = s.cp := by cases e <;> rfl
@[simp] theorem takeEvent_err (e : Event) (s : State) : (takeEvent e s).err = s.err := by cases e <;> rfl
@[simp] theorem takeEvent_hdrCnt (e : Event) (s : State) : (takeEvent e s).hdrCnt = s.hdrCnt := by cases e <;> rfl
@[simp] theorem takeEvent_hdrLo (e : Event) (s : State) : (takeEvent e s).hdrLo = s.hdrLo := by cases e <;> rfl
@[simp] theorem takeEvent_wphase (e : Event) (s : State) : (takeEvent e s).wphase = s.wphase := by cases e <;> rfl
@[simp] theorem takeEvent_sphase (e : Event) (s : State) : (takeEvent e s).sphase = s.sphase := by cases e <;> rfl
@[simp] theorem takeEvent_sess (e : Event) (s : State) : (takeEvent e s).sess = s.sess := by cases e <;> rfl
@[simp] theorem takeEvent_tEnd (e : Event) (s : State) : (takeEvent e s).tEnd = s.tEnd := by cases e <;> rfl
@[simp] theorem takeEvent_wr (e : Event) (s : State) : (takeEvent e s).wr = s.wr := by cases e <;> rfl
@[simp] theorem takeEvent_wrRet (e : Event) (s : State) : (takeEvent e s).wrRet = s.wrRet := by cases e <;> rfl
@[simp] theorem takeEvent_lines (e : Event) (s : State) : (takeEvent e s).lines = s.lines := by cases e <;> rfl
@[simp] theorem takeEvent_res (e : Event) (s : State) : (takeEvent e s).res = s.res := by cases e <;> rfl
@[simp] theorem takeEvent_warnTimeout (e : Event) (s : State) :
    (takeEvent e s).warnTimeout = s.warnTimeout := by cases e <;> rfl
@[simp] theorem takeEvent_resValid (e : Event) (s : State) : (takeEvent e s).resValid = s.resValid := by cases e <;> rfl
@[simp] theorem takeEvent_now (e : Event) (s : State) : (takeEvent e s).now = s.now := by cases e <;> rfl
@[simp] theorem takeEvent_timer (e : Event) (s : State) : (takeEvent e s).timer = s.timer := by cases e <;> rfl
@[simp] theorem takeEvent_tx (e : Event) (s : State) : (takeEvent e s).tx = s.tx := by cases e <;> rfl
@[simp] theorem takeEvent_latches (e : Event) (s : State) : (takeEvent e s).latches = s.latches := by cases e <;> rfl
@[simp] theorem takeEvent_pulseOk (e : Event) (s : State) : (takeEvent e s).pulseOk = s.pulseOk := by cases e <;> rfl
@[simp] theorem takeEvent_mem (e : Event) (s : State) : (takeEvent e s).mem = s.mem := by cases e <;> rfl
@[simp] theorem takeEvent_draws (e : Event) (s : State) : (takeEvent e s).draws = s.draws := by cases e <;> rfl
@[simp] theorem takeEvent_host (e : Event) (s : State) : (takeEvent e s).host = s.host := by cases e <;> rfl
@[simp] theorem takeEvent_trace (e : Event) (s : State) : (takeEvent e s).trace = s.trace := by cases e <;> rfl
@[simp] theorem takeEvent_env (e : Event) (s : State) : (takeEvent e s).env = s.env := by cases e <;> rfl

/-! ### `cutPulse` -/

@[simp] theorem cutPulse_trace (s : State) : (cutPulse s).trace = s.trace := by unfold cutPulse; split <;> rfl

@[simp] theorem cutPulse_tx (s : State) : (cutPulse s).tx = s.tx := by unfold cutPulse; split <;> rfl

@[simp] theorem cutPulse_rx (s : State) : (cutPulse s).rx = s.rx := by unfold cutPulse; split <;> rfl

@[simp] theorem cutPulse_params (s : State) : (cutPulse s).params = s.params := by unfold cutPulse; split <;> rfl

@[simp] theorem cutPulse_now (s : State) : (cutPulse s).now = s.now := by unfold cutPulse; split <;> rfl

end Sys2Proof.Machine
end

