-- ==== Sys2Proof/Laws/Ops.lean ====
section
/-! SUPPORT. What the shared operations do, each said once: the phases in order, a whole write, the session bracket. -/

namespace Sys2Proof.Machine

@[simp] theorem runWPhases_nil (s : State) : runWPhases [] s = s := rfl

@[simp] theorem runWPhases_cons (p : WPhase) (ps : List WPhase) (s : State) :
    runWPhases (p :: ps) s = runWPhases ps (wPhaseStep p s) := rfl

@[simp] theorem runSPhases_nil (s : State) : runSPhases [] s = s := rfl

@[simp] theorem runSPhases_cons (p : SPhase) (ps : List SPhase) (s : State) :
    runSPhases (p :: ps) s = runSPhases ps (sPhaseStep p s) := rfl

/-- The phases of a write from one phase on are that phase and those from the next one on. -/
theorem writeByteFrom_step (p : WPhase) (h : p ≠ .wIdle) :
    writeByteFrom p.code = p :: writeByteFrom (nextWPhase p).code := by
  cases p
  case wIdle => exact absurd rfl h
  all_goals rfl

/-- The pin levels `x` and `1 - x` differ. -/
theorem level_ne_not : ∀ x : Level, ¬ x = ~~~x := by decide

theorem level_zero_or_one : ∀ x : Level, x = 0 ∨ x = 1 := by decide

/-- A latch operation loads its latch: LATCH_AH in full. -/
theorem runWPhases_latchAh (s : State) :
    runWPhases (latchAhFrom 0) s = { s with
      lines := { s.lines with bus := addrHigh s.wr.addr, leAh := releaseLevel s }
      latches := { s.latches with ah := addrHigh s.wr.addr }
      trace := s.trace ++ [.bus (addrHigh s.wr.addr), .set .leAh (assertLevel s), .wait .latch,
        .set .leAh (releaseLevel s)]
      now := s.now + s.params.tLatch
      wphase := .alPut } := by
  simp [latchAhFrom, wPhaseStep, wPhaseAct, setLine, hold, emit, driveBus, latchesAfter, pulseAfter, memAfter,
    captured, releases, nextWPhase, BusLines.drive, BusLines.level, guardTime, assertLevel, releaseLevel]

/-- LATCH_AL in full. -/
theorem runWPhases_latchAl (s : State) :
    runWPhases (latchAlFrom 0) s = { s with
      lines := { s.lines with bus := addrLow s.wr.addr, leAl := releaseLevel s }
      latches := { s.latches with al := addrLow s.wr.addr }
      trace := s.trace ++ [.bus (addrLow s.wr.addr), .set .leAl (assertLevel s), .wait .latch,
        .set .leAl (releaseLevel s)]
      now := s.now + s.params.tLatch
      wphase := .dPut } := by
  simp [latchAlFrom, wPhaseStep, wPhaseAct, setLine, hold, emit, driveBus, latchesAfter, pulseAfter, memAfter,
    captured, releases, nextWPhase, BusLines.drive, BusLines.level, guardTime, assertLevel, releaseLevel]

/-- LATCH_D in full. -/
theorem runWPhases_latchD (s : State) :
    runWPhases (latchDFrom 0) s = { s with
      lines := { s.lines with bus := s.wr.data, leD := releaseLevel s }
      latches := { s.latches with dl := s.wr.data }
      trace := s.trace ++ [.bus s.wr.data, .set .leD (assertLevel s), .wait .latch, .set .leD (releaseLevel s)]
      now := s.now + s.params.tLatch
      wphase := .weLow } := by
  simp [latchDFrom, wPhaseStep, wPhaseAct, setLine, hold, emit, driveBus, latchesAfter, pulseAfter, memAfter,
    captured, releases, nextWPhase, BusLines.drive, BusLines.level, guardTime, assertLevel, releaseLevel]

/-- The RAM after a strobe from rest: the latched cell written if the RAM is selected. -/
def strobed (s : State) : Memory :=
  if s.lines.csN = 0 ∧ s.lines.loeN = 0 then Memory.write s.mem (latchAddress s.latches).toNat s.latches.dl else s.mem

/-- WE_PULSE in full, from `we_n` at rest. -/
theorem runWPhases_wePulse (s : State) (h : s.lines.weN = 1) :
    runWPhases (wePulseFrom 0) s = { s with
      trace := s.trace ++ [.set .weN 0, .wait .we, .set .weN 1]
      now := s.now + s.params.tWe
      pulseOk := s.lines.csN == 0 && s.lines.loeN == 0
      mem := strobed s
      wphase := .wIdle } := by
  have hl : { s.lines with weN := 1 } = s.lines := by cases hs : s.lines; simp_all
  simp [wePulseFrom, wPhaseStep, wPhaseAct, setLine, hold, emit, latchesAfter, pulseAfter, memAfter, nextWPhase,
    BusLines.drive, guardTime, h, strobed, strobeStores]
  exact hl

/-- WRITE_BYTE in full, from `we_n` at rest. -/
theorem runWPhases_write (s : State) (h : s.lines.weN = 1) :
    runWPhases (writeByteFrom 0) s = { s with
      lines := { s.lines with
        bus := s.wr.data, leAh := releaseLevel s, leAl := releaseLevel s, leD := releaseLevel s }
      latches := { ah := addrHigh s.wr.addr, al := addrLow s.wr.addr, dl := s.wr.data }
      trace := s.trace ++
        [.bus (addrHigh s.wr.addr), .set .leAh (assertLevel s), .wait .latch, .set .leAh (releaseLevel s),
         .bus (addrLow s.wr.addr), .set .leAl (assertLevel s), .wait .latch, .set .leAl (releaseLevel s),
         .bus s.wr.data, .set .leD (assertLevel s), .wait .latch, .set .leD (releaseLevel s),
         .set .weN 0, .wait .we, .set .weN 1]
      now := s.now + s.params.tLatch + s.params.tLatch + s.params.tLatch + s.params.tWe
      pulseOk := s.lines.csN == 0 && s.lines.loeN == 0
      mem := if s.lines.csN = 0 ∧ s.lines.loeN = 0 then Memory.write s.mem s.wr.addr.toNat s.wr.data else s.mem
      wphase := .wIdle } := by
  have hs : writeByteFrom 0 = latchAhFrom 0 ++ (latchAlFrom 0 ++ (latchDFrom 0 ++ wePulseFrom 0)) := rfl
  have ha : addrHigh s.wr.addr ++ addrLow s.wr.addr = s.wr.addr := headerAddress_halves s.wr.addr
  simp only [hs, runWPhases, List.foldl_append]
  change runWPhases (wePulseFrom 0) (runWPhases (latchDFrom 0) (runWPhases (latchAlFrom 0)
    (runWPhases (latchAhFrom 0) s))) = _
  rw [runWPhases_latchAh, runWPhases_latchAl, runWPhases_latchD, runWPhases_wePulse]
  · simp [strobed, latchAddress, ha, assertLevel, releaseLevel]
  · exact h

/-- BEGIN_SESSION in full. -/
theorem runSPhases_begin (s : State) :
    runSPhases (beginSessionFrom 0) s = { s with
      lines := { s.lines with trstN := 0, csN := 0, loeN := 0 }
      trace := s.trace ++ [.set .trstN 0, .wait .settle, .set .csN 0, .set .loeN 0]
      now := s.now + s.params.tSettle
      sphase := .sIdle } := by
  simp [beginSessionFrom, sPhaseStep, sPhaseAct, setLine, hold, emit, latchesAfter, pulseAfter, memAfter, nextSPhase,
    BusLines.drive, guardTime]

/-- END_SESSION in full. -/
theorem runSPhases_end (s : State) :
    runSPhases (endSessionFrom 0) s = { s with
      lines := { s.lines with loeN := 1, csN := 1, trstN := 1 }
      trace := s.trace ++ [.set .loeN 1, .set .csN 1, .set .trstN 1, .wait .settle]
      now := s.now + s.params.tSettle
      pulseOk := false
      sphase := .sIdle } := by
  simp [endSessionFrom, sPhaseStep, sPhaseAct, setLine, hold, emit, latchesAfter, pulseAfter, memAfter, nextSPhase,
    BusLines.drive, guardTime]

/-- The block's reset, but for what a pulse cut short leaves in a latch or a cell. -/
theorem blockReset_eq (s : State) :
    blockReset s = { State.reset with
      params := s.params
      lines := BusLines.atReset s.params.leActive
      now := s.now
      timer := { loadedAt := s.now, expired := false }
      ports := s.ports
      rx := s.rx
      tx := s.tx
      latches := (cutPulse s).latches
      mem := (cutPulse s).mem
      draws := (cutPulse s).draws
      host := s.host
      trace := s.trace
      env := s.env } := by
  cases hw : s.wphase <;> simp [blockReset, loadTimer, State.reset, cutPulse, hw, storeRam]

end Sys2Proof.Machine
end

