-- ==== Sys2Proof/Laws/PerInstr.lean ====
section
/-! SUPPORT. One statement about every instruction as syntax: its encoding carries the fixed bits of its row of
spec/opcode_table.json, outside the row's exclusion. -/

namespace Sys2Proof.Laws.RowBits

/-- The word of a well-formed instruction fits the row of its constructor (30_encoding.md R98, R107). -/
def Statement (i : Instr) : Prop := i.wellFormed = true → i.row.fits (encode i) = true

/-- A byte's event word has the row's fixed bits `ev[9:8] = 0`. -/
theorem byteWord_kind : ∀ b : Byte, eventWord (.byte b) &&& 0x300 = 0x000 := by decide

theorem idleStart : Statement .idleStart := fun _ => rfl

theorem idleSkip (b : Byte) : Statement (.idleSkip b) := fun _ => by
  simpa [Instr.row, encode, RowKey.fits] using byteWord_kind b

theorem idleTmo : Statement .idleTmo := fun _ => rfl

theorem idleClosed : Statement .idleClosed := fun _ => rfl

theorem hdrLo (b : Byte) : Statement (.hdrLo b) := fun _ => by simpa [Instr.row, encode, RowKey.fits] using byteWord_kind b

theorem hdrHi (b : Byte) : Statement (.hdrHi b) := fun _ => by simpa [Instr.row, encode, RowKey.fits] using byteWord_kind b

theorem hdrTmo : Statement .hdrTmo := fun _ => rfl

theorem hdrClosed : Statement .hdrClosed := fun _ => rfl

theorem strTmo : Statement .strTmo := fun _ => rfl

theorem strEnd : Statement .strEnd := fun _ => rfl

theorem strClosed : Statement .strClosed := fun _ => rfl

theorem strData (b : Byte) : Statement (.strData b) := fun _ => by
  simpa [Instr.row, encode, RowKey.fits] using byteWord_kind b

theorem ack : Statement .ack := fun _ => rfl

theorem sessionBegin (p : BitVec 2) : Statement (.sessionBegin p) := by unfold Statement; revert p; decide

theorem beginSession (p : BitVec 2) : Statement (.beginSession p) := by unfold Statement; revert p; decide

theorem wrStep (p : BitVec 4) : Statement (.wrStep p) := by unfold Statement; revert p; decide

theorem writeByte (p : BitVec 4) : Statement (.writeByte p) := by unfold Statement; revert p; decide

theorem latchAh (p : BitVec 2) : Statement (.latchAh p) := by unfold Statement; revert p; decide

theorem latchAl (p : BitVec 2) : Statement (.latchAl p) := by unfold Statement; revert p; decide

theorem latchD (p : BitVec 2) : Statement (.latchD p) := by unfold Statement; revert p; decide

theorem wePulse (p : BitVec 2) : Statement (.wePulse p) := by unfold Statement; revert p; decide

theorem wrOk : Statement .wrOk := fun _ => rfl

theorem wrErr : Statement .wrErr := fun _ => rfl

theorem confirm : Statement .confirm := fun _ => rfl

theorem finEnd (p : BitVec 2) : Statement (.finEnd p) := by unfold Statement; revert p; decide

theorem endSession (p : BitVec 2) : Statement (.endSession p) := by unfold Statement; revert p; decide

theorem finReport : Statement .finReport := fun _ => rfl

theorem hUpload (start : Addr) (image : List Byte) : Statement (.hUpload start image) := fun _ => rfl

end Sys2Proof.Laws.RowBits
end

