-- ==== Sys2Proof/Laws/Step.lean ====
section
/-! SUPPORT. What a step does: whose turn it is, the row each control point runs, and that every row is answered by a
next state. -/

namespace Sys2Proof

theorem decode_idle_byte (h : BitVec 1) (b : Byte) :
    decode (.event .idleWait h (eventWord (.byte b))) =
      .ok (if b = startMarker then .idleStart else .idleSkip b) := by
  simp only [decode, decodeEvent, decodeIdle, eventKind_byte, eventData_byte, if_true]
  split <;> rfl

theorem decode_idle_timeout (h : BitVec 1) : decode (.event .idleWait h (eventWord .timeout)) = .ok .idleTmo := rfl

theorem decode_idle_closed (h : BitVec 1) : decode (.event .idleWait h (eventWord .closed)) = .ok .idleClosed := rfl

theorem decode_hdr_byte (h : BitVec 1) (b : Byte) :
    decode (.event .hdrWait h (eventWord (.byte b))) = .ok (if h = 0 then .hdrLo b else .hdrHi b) := by
  simp only [decode, decodeEvent, decodeHdr, eventKind_byte, eventData_byte, if_true]
  split <;> rfl

theorem decode_hdr_timeout (h : BitVec 1) : decode (.event .hdrWait h (eventWord .timeout)) = .ok .hdrTmo := rfl

theorem decode_hdr_closed (h : BitVec 1) : decode (.event .hdrWait h (eventWord .closed)) = .ok .hdrClosed := rfl

theorem decode_str_byte (h : BitVec 1) (b : Byte) :
    decode (.event .strWait h (eventWord (.byte b))) = .ok (if b = endMarker then .strEnd else .strData b) := by
  simp only [decode, decodeEvent, decodeStr, eventKind_byte, eventData_byte, if_true]
  rw [if_neg (by decide)]
  split <;> rfl

theorem decode_str_timeout (h : BitVec 1) : decode (.event .strWait h (eventWord .timeout)) = .ok .strTmo := rfl

theorem decode_str_closed (h : BitVec 1) : decode (.event .strWait h (eventWord .closed)) = .ok .strClosed := rfl

end Sys2Proof

namespace Sys2Proof.Machine

/-! ### Whose turn it is -/

theorem step_core {s : State} (h : s.env = []) : step s = perform (fetchCore s) := by
  simp only [step, fetch, h]

theorem step_act {s : State} {a : EnvAct} {rest : List EnvAct} (h : s.env = a :: rest) :
    step s = perform (fetchAct a { s with env := rest }) := by
  simp only [step, fetch, h]

/-! ### The row a control point runs -/

theorem fetchCore_wait {s : State} (h : s.cp.isWait = true) : fetchCore s = fetchEvent (clearPulses s) := by
  simp only [fetchCore, h, if_true]

/-- The row of the event taken at CP_IDLE_WAIT. -/
def idleRow : Event → Instr
  | .byte b => if b = startMarker then .idleStart else .idleSkip b
  | .timeout => .idleTmo
  | .closed => .idleClosed

/-- The row of the event taken at CP_HDR_WAIT. -/
def hdrRow (hdrCnt : BitVec 1) : Event → Instr
  | .byte b => if hdrCnt = 0 then .hdrLo b else .hdrHi b
  | .timeout => .hdrTmo
  | .closed => .hdrClosed

/-- The row of the event taken at CP_STR_WAIT. -/
def strRow : Event → Instr
  | .byte b => if b = endMarker then .strEnd else .strData b
  | .timeout => .strTmo
  | .closed => .strClosed

theorem fetchCore_none {s : State} (h : s.cp.isWait = true) (he : pendingEvent s = none) :
    fetchCore s = .still (clearPulses s) := by
  rw [fetchCore_wait h, fetchEvent]
  simp only [show pendingEvent (clearPulses s) = none from he]

theorem fetchCore_idle {s : State} {e : Event} (h : s.cp = .idleWait) (he : pendingEvent s = some e) :
    fetchCore s = .run (idleRow e) (takeEvent e (clearPulses s)) := by
  rw [fetchCore_wait (by rw [h]; rfl), fetchEvent]
  simp only [show pendingEvent (clearPulses s) = some e from he, clearPulses_cp, h]
  cases e <;> simp only [decode_idle_byte, decode_idle_timeout, decode_idle_closed, idleRow]

theorem fetchCore_hdr {s : State} {e : Event} (h : s.cp = .hdrWait) (he : pendingEvent s = some e) :
    fetchCore s = .run (hdrRow s.hdrCnt e) (takeEvent e (clearPulses s)) := by
  rw [fetchCore_wait (by rw [h]; rfl), fetchEvent]
  simp only [show pendingEvent (clearPulses s) = some e from he, clearPulses_cp, clearPulses_hdrCnt, h]
  cases e <;> simp only [decode_hdr_byte, decode_hdr_timeout, decode_hdr_closed, hdrRow]

theorem fetchCore_str {s : State} {e : Event} (h : s.cp = .strWait) (he : pendingEvent s = some e) :
    fetchCore s = .run (strRow e) (takeEvent e (clearPulses s)) := by
  rw [fetchCore_wait (by rw [h]; rfl), fetchEvent]
  simp only [show pendingEvent (clearPulses s) = some e from he, clearPulses_cp, h]
  cases e <;> simp only [decode_str_byte, decode_str_timeout, decode_str_closed, strRow]

theorem fetchCore_control {s : State} (h : s.cp.isWait = false) :
    fetchCore s = match decodeLoop s.cp (controlPhaseOf s) with
      | .ok i => .run i (clearPulses s)
      | .error _ => .stuck .noRow := by
  simp only [fetchCore, h, Bool.false_eq_true, if_false, fetchControl, decode, decodeControl, controlWord,
    controlCp_pack, controlPhase_pack, clearPulses_cp, ofCode_code]
  rfl

theorem fetchCore_ack {s : State} (h : s.cp = .ackTx) : fetchCore s = .run .ack (clearPulses s) := by
  rw [fetchCore_control (by rw [h]; rfl)]; simp [h, decodeLoop]

theorem fetchCore_confirm {s : State} (h : s.cp = .confirmTx) : fetchCore s = .run .confirm (clearPulses s) := by
  rw [fetchCore_control (by rw [h]; rfl)]; simp [h, decodeLoop]

theorem fetchCore_report {s : State} (h : s.cp = .report) : fetchCore s = .run .finReport (clearPulses s) := by
  rw [fetchCore_control (by rw [h]; rfl)]; simp [h, decodeLoop]

theorem fetchCore_write {s : State} (h : s.cp = .write) (hp : s.wphase ≠ .wIdle) :
    fetchCore s = .run (.wrStep s.wphase.code) (clearPulses s) := by
  have : s.wphase.code ≠ 15 := fun hc => hp ((wPhase_code_idle _).mp hc)
  rw [fetchCore_control (by rw [h]; rfl)]
  simp only [h, decodeLoop, controlPhaseOf, this, if_false]

/-- The phase bits `pp` of a session phase. -/
def phaseBits (p : SPhase) : BitVec 2 := p.code.extractLsb' 0 2

theorem fetchCore_begin {s : State} (h : s.cp = .beginRun)
    (hp : s.sphase = .bReset ∨ s.sphase = .bSettle ∨ s.sphase = .bCs ∨ s.sphase = .bLoe) :
    fetchCore s = .run (.sessionBegin (phaseBits s.sphase)) (clearPulses s) := by
  rw [fetchCore_control (by rw [h]; rfl)]
  rcases hp with hp | hp | hp | hp <;> simp only [h, hp, decodeLoop, controlPhaseOf] <;> rfl

theorem fetchCore_end {s : State} (h : s.cp = .endRun)
    (hp : s.sphase = .eLoe ∨ s.sphase = .eCs ∨ s.sphase = .eReset ∨ s.sphase = .eSettle) :
    fetchCore s = .run (.finEnd (phaseBits s.sphase)) (clearPulses s) := by
  rw [fetchCore_control (by rw [h]; rfl)]
  rcases hp with hp | hp | hp | hp <;> simp only [h, hp, decodeLoop, controlPhaseOf] <;> rfl

/-! ### Every row is answered -/

theorem exec_total (i : Instr) (s : State) : ∃ t, exec i s = .next t := by
  cases i
  case ack => simp only [exec, execAck]; split <;> exact ⟨_, rfl⟩
  case confirm => simp only [exec, execConfirm]; split <;> exact ⟨_, rfl⟩
  case wrStep p =>
    simp only [exec, execWrStep]
    split
    · split <;> exact ⟨_, rfl⟩
    · exact ⟨_, rfl⟩
  case sessionBegin p => simp only [exec, execSessionBegin]; split <;> exact ⟨_, rfl⟩
  case finEnd p => simp only [exec, execFinEnd]; split <;> exact ⟨_, rfl⟩
  all_goals exact ⟨_, rfl⟩

end Sys2Proof.Machine
end

