-- ==== Sys2Proof/Laws/Run.lean ====
section
/-! SUPPORT. Runs of several steps and of several instructions. -/

namespace Sys2Proof.Safety

open Sys2Proof.Machine

@[simp] theorem after_zero (s : State) : after 0 s = .next s := rfl

/-- One step taken, the rest of the run to go. -/
theorem after_succ {n : Nat} {s t : State} (h : step s = .next t) : after (n + 1) s = after n t := by
  have h' : Sys2Proof.core.step s = .next t := h
  simp only [after, Host.Core.run, h']; rfl

/-- A run in two parts. -/
theorem after_add {m n : Nat} {s t : State} (h : after m s = .next t) : after (m + n) s = after n t := by
  induction m generalizing s with
  | zero => rw [Nat.zero_add]; cases h; rfl
  | succ m ih =>
    rw [Nat.succ_add]
    cases hs : step s with
    | next u => rw [after_succ hs] at h ⊢; exact ih h
    | fault f => have h' : Sys2Proof.core.step s = .fault f := hs; simp [after, Host.Core.run, h'] at h
    | refused r => have h' : Sys2Proof.core.step s = .refused r := hs; simp [after, Host.Core.run, h'] at h

@[simp] theorem execSeq_nil (s : State) : execSeq [] s = .next s := rfl

theorem execSeq_cons {i : Instr} {is : List Instr} {s t : State} (h : exec i s = .next t) :
    execSeq (i :: is) s = execSeq is t := by
  simp only [execSeq, h]

/-! ### What a step can do -/

/-- The CORE's turn runs what is fetched from the state with the inputs of the turn. -/
theorem step_of_coreTurn {s u : State} (h : CoreTurn s u) : step s = perform (fetchCore u) := by
  rcases h with ⟨h, rfl⟩ | ⟨dt, p, e, rest, h, rfl⟩
  · exact step_core h
  · rw [step_act h]; rfl

/-- The inputs of a turn: time, ports, timer, and the acts left. -/
theorem coreTurn_frame {s u : State} (h : CoreTurn s u) :
    ∃ dt ports timer env, u = { s with now := s.now + dt, ports := ports, timer := timer, env := env } := by
  rcases h with ⟨_, rfl⟩ | ⟨dt, ports, e, rest, _, rfl⟩
  · exact ⟨0, _, _, _, rfl⟩
  · exact ⟨dt, ports, _, rest, rfl⟩

/-- The event pending is a byte exactly when the channel has one, and that one. -/
theorem pendingEvent_byte {s : State} {b : Byte} : pendingEvent s = some (.byte b) ↔ s.rx.head? = some b := by
  unfold pendingEvent
  cases s.rx with
  | cons c rest => simp
  | nil => simp only [List.head?_nil, reduceCtorEq, iff_false]; split <;> (try split) <;> simp

/-- A closed stream or an expired wait is pending only at an empty channel. -/
theorem rx_nil_of_pendingEvent {s : State} {e : Event} (h : pendingEvent s = some e) (hb : ∀ b, e ≠ .byte b) :
    s.rx = [] := by
  unfold pendingEvent at h
  cases hr : s.rx with
  | nil => rfl
  | cons c rest => rw [hr] at h; cases h; exact absurd rfl (hb c)

/-- What the CORE's turn can do, by control point. -/
inductive CoreCase (u t : State) : Prop where
  | waits (hw : u.cp.isWait = true) (hp : pendingEvent u = none) (ht : t = clearPulses u)
  | idle (e : Event) (hc : u.cp = .idleWait) (hp : pendingEvent u = some e)
      (ht : exec (idleRow e) (takeEvent e (clearPulses u)) = .next t)
  | hdr (e : Event) (hc : u.cp = .hdrWait) (hp : pendingEvent u = some e)
      (ht : exec (hdrRow u.hdrCnt e) (takeEvent e (clearPulses u)) = .next t)
  | str (e : Event) (hc : u.cp = .strWait) (hp : pendingEvent u = some e)
      (ht : exec (strRow e) (takeEvent e (clearPulses u)) = .next t)
  | ack (hc : u.cp = .ackTx) (ht : exec .ack (clearPulses u) = .next t)
  | confirm (hc : u.cp = .confirmTx) (ht : exec .confirm (clearPulses u) = .next t)
  | report (hc : u.cp = .report) (ht : exec .finReport (clearPulses u) = .next t)
  | write (hc : u.cp = .write) (hp : u.wphase ≠ .wIdle)
      (ht : exec (.wrStep u.wphase.code) (clearPulses u) = .next t)
  | beginRun (p : BitVec 2) (hc : u.cp = .beginRun) (hp : u.sphase = SPhase.ofBegin p)
      (ht : exec (.sessionBegin p) (clearPulses u) = .next t)
  | endRun (p : BitVec 2) (hc : u.cp = .endRun) (hp : u.sphase = SPhase.ofEnd p)
      (ht : exec (.finEnd p) (clearPulses u) = .next t)

theorem core_case {u t : State} (h : perform (fetchCore u) = .next t) : CoreCase u t := by
  have wait : u.cp.isWait = true → pendingEvent u = none → CoreCase u t := fun hw hp => by
    rw [fetchCore_none hw hp] at h; cases h; exact .waits hw hp rfl
  cases hc : u.cp
  case idleWait =>
    cases hp : pendingEvent u with
    | none => exact wait (by rw [hc]; rfl) hp
    | some e => rw [fetchCore_idle hc hp] at h; exact .idle e hc hp h
  case hdrWait =>
    cases hp : pendingEvent u with
    | none => exact wait (by rw [hc]; rfl) hp
    | some e => rw [fetchCore_hdr hc hp] at h; exact .hdr e hc hp h
  case strWait =>
    cases hp : pendingEvent u with
    | none => exact wait (by rw [hc]; rfl) hp
    | some e => rw [fetchCore_str hc hp] at h; exact .str e hc hp h
  case ackTx => rw [fetchCore_ack hc] at h; exact .ack hc h
  case confirmTx => rw [fetchCore_confirm hc] at h; exact .confirm hc h
  case report => rw [fetchCore_report hc] at h; exact .report hc h
  case write =>
    by_cases hp : u.wphase = .wIdle
    · rw [fetchCore_control (by rw [hc]; rfl)] at h
      simp [hc, decodeLoop, controlPhaseOf, hp, WPhase.code, perform] at h
    · rw [fetchCore_write hc hp] at h; exact .write hc hp h
  case beginRun =>
    cases hp : u.sphase
    case bReset => rw [fetchCore_begin hc (by simp [hp]), hp] at h; exact .beginRun 0 hc hp h
    case bSettle => rw [fetchCore_begin hc (by simp [hp]), hp] at h; exact .beginRun 1 hc hp h
    case bCs => rw [fetchCore_begin hc (by simp [hp]), hp] at h; exact .beginRun 2 hc hp h
    case bLoe => rw [fetchCore_begin hc (by simp [hp]), hp] at h; exact .beginRun 3 hc hp h
    all_goals
      rw [fetchCore_control (by rw [hc]; rfl)] at h
      simp [hc, decodeLoop, controlPhaseOf, hp, SPhase.code, perform] at h
  case endRun =>
    cases hp : u.sphase
    case eLoe => rw [fetchCore_end hc (by simp [hp]), hp] at h; exact .endRun 0 hc hp h
    case eCs => rw [fetchCore_end hc (by simp [hp]), hp] at h; exact .endRun 1 hc hp h
    case eReset => rw [fetchCore_end hc (by simp [hp]), hp] at h; exact .endRun 2 hc hp h
    case eSettle => rw [fetchCore_end hc (by simp [hp]), hp] at h; exact .endRun 3 hc hp h
    all_goals
      rw [fetchCore_control (by rw [hc]; rfl)] at h
      simp [hc, decodeLoop, controlPhaseOf, hp, SPhase.code, perform] at h

theorem pair_cases (p : BitVec 2) : p = 0 ∨ p = 1 ∨ p = 2 ∨ p = 3 := by revert p; decide

/-- WR.STEP before the last phase. -/
theorem exec_wrStep {p : WPhase} (s : State) (h : p ≠ .weHigh) :
    exec (.wrStep p.code) s = .next (wPhaseStep p s) := by
  cases p
  case weHigh => exact absurd rfl h
  all_goals rfl

/-- What the CORE's turn answers, row by row: when each row runs and the state it gives. -/
inductive CoreResult (u t : State) : Prop where
  | still (hc : u.cp.isWait = true) (h1 : pendingEvent u = none)
      (ht : t = clearPulses u)
  | idleStart (b : Byte) (hc : u.cp = .idleWait) (h1 : pendingEvent u = some (.byte b)) (h2 : b = startMarker)
      (ht : t = { takeEvent (.byte b) (clearPulses u) with cp := .ackTx })
  | idleByte (b : Byte) (hc : u.cp = .idleWait) (h1 : pendingEvent u = some (.byte b)) (h2 : b ≠ startMarker)
      (ht : t = takeEvent (.byte b) (clearPulses u))
  | idleTmo (hc : u.cp = .idleWait) (h1 : pendingEvent u = some .timeout)
      (ht : t = loadTimer (takeEvent .timeout (clearPulses u)))
  | closed (hc : u.cp = .idleWait ∨ u.cp = .hdrWait) (h1 : pendingEvent u = some .closed)
      (ht : t = takeEvent .closed (clearPulses u))
  | hdrLo (b : Byte) (hc : u.cp = .hdrWait) (h1 : pendingEvent u = some (.byte b)) (h2 : u.hdrCnt = 0)
      (ht : t = { takeEvent (.byte b) (clearPulses u) with hdrLo := b, hdrCnt := 1 })
  | hdrHi (b : Byte) (hc : u.cp = .hdrWait) (h1 : pendingEvent u = some (.byte b)) (h2 : u.hdrCnt ≠ 0)
      (ht : t = { takeEvent (.byte b) (clearPulses u) with
        sess := { u.sess with startAddress := headerAddress b u.hdrLo }
        hdrCnt := 0
        sphase := .bReset
        cp := .beginRun })
  | hdrTmo (hc : u.cp = .hdrWait) (h1 : pendingEvent u = some .timeout)
      (ht : t = raiseFailed .truncatedHeader (takeEvent .timeout (clearPulses u)))
  | strTmo (hc : u.cp = .strWait) (h1 : pendingEvent u = some .timeout)
      (ht : t = loadTimer (emit .warn { takeEvent .timeout (clearPulses u) with warnTimeout := true }))
  | strClosed (hc : u.cp = .strWait) (h1 : pendingEvent u = some .closed)
      (ht : t = raiseFailed .streamClosed (takeEvent .closed (clearPulses u)))
  | strEnd (b : Byte) (hc : u.cp = .strWait) (h1 : pendingEvent u = some (.byte b)) (h2 : b = endMarker)
      (ht : t = { takeEvent (.byte b) (clearPulses u) with cp := .confirmTx })
  | strData (b : Byte) (hc : u.cp = .strWait) (h1 : pendingEvent u = some (.byte b)) (h2 : b ≠ endMarker)
      (ht : t = { takeEvent (.byte b) (clearPulses u) with
        wr := { addr := u.sess.cursor, data := b }, wphase := .ahPut, cp := .write })
  | stall (hc : u.cp = .ackTx ∨ u.cp = .confirmTx) (h1 : u.ports.txReady = false)
      (ht : t = clearPulses u)
  | ack (hc : u.cp = .ackTx)
      (ht : t = loadTimer { sendTx ackByte (clearPulses u) with hdrCnt := 0, cp := .hdrWait })
  | confirm (hc : u.cp = .confirmTx)
      (ht : t = enterDone (sendTx confirmByte (clearPulses u)))
  | report (hc : u.cp = .report)
      (ht : t = returnToIdle (clearPulses u))
  | wr (hc : u.cp = .write) (h1 : u.wphase ≠ .wIdle) (h2 : u.wphase ≠ .weHigh)
      (ht : t = wPhaseStep u.wphase (clearPulses u))
  | wrOk (hc : u.cp = .write) (h1 : u.wphase = .weHigh) (h2 : u.ports.busFault = false)
      (ht : t = acceptWrite { wPhaseStep .weHigh (clearPulses u) with wrRet := .ok })
  | wrErr (hc : u.cp = .write) (h1 : u.wphase = .weHigh) (h2 : u.ports.busFault = true)
      (ht : t = rejectWrite { wPhaseStep .weHigh (clearPulses u) with wrRet := .busError })
  | sessionBegin (hc : u.cp = .beginRun) (h1 : u.sphase = .bReset ∨ u.sphase = .bSettle ∨ u.sphase = .bCs)
      (ht : t = sPhaseStep u.sphase (clearPulses u))
  | sessionOpen (hc : u.cp = .beginRun) (h1 : u.sphase = .bLoe)
      (ht : t = openSession (sPhaseStep .bLoe (clearPulses u)))
  | finEnd (hc : u.cp = .endRun) (h1 : u.sphase = .eLoe ∨ u.sphase = .eCs ∨ u.sphase = .eReset)
      (ht : t = sPhaseStep u.sphase (clearPulses u))
  | finEndLast (hc : u.cp = .endRun) (h1 : u.sphase = .eSettle)
      (ht : t = { sPhaseStep .eSettle (clearPulses u) with sphase := .sIdle, cp := .report })

theorem core_result {u t : State} (h : CoreCase u t) : CoreResult u t := by
  cases h with
  | waits a b c => exact .still a b c
  | idle e hc hp ht =>
    cases e with
    | byte b =>
      simp only [idleRow] at ht
      split at ht <;> cases ht
      · exact .idleStart b hc hp ‹_› rfl
      · exact .idleByte b hc hp ‹_› rfl
    | timeout => cases ht; exact .idleTmo hc hp rfl
    | closed => cases ht; exact .closed (.inl hc) hp rfl
  | hdr e hc hp ht =>
    cases e with
    | byte b =>
      simp only [hdrRow] at ht
      split at ht <;> cases ht
      · exact .hdrLo b hc hp ‹_› rfl
      · exact .hdrHi b hc hp ‹_› rfl
    | timeout => cases ht; exact .hdrTmo hc hp rfl
    | closed => cases ht; exact .closed (.inr hc) hp rfl
  | str e hc hp ht =>
    cases e with
    | byte b =>
      simp only [strRow] at ht
      split at ht <;> cases ht
      · exact .strEnd b hc hp ‹_› rfl
      · exact .strData b hc hp ‹_› rfl
    | timeout => cases ht; exact .strTmo hc hp rfl
    | closed => cases ht; exact .strClosed hc hp rfl
  | ack hc ht =>
    simp only [exec, execAck, clearPulses_ports] at ht
    cases hr : u.ports.txReady <;> simp only [hr] at ht <;> cases ht
    · exact .stall (.inl hc) hr rfl
    · exact .ack hc rfl
  | confirm hc ht =>
    simp only [exec, execConfirm, clearPulses_ports] at ht
    cases hr : u.ports.txReady <;> simp only [hr] at ht <;> cases ht
    · exact .stall (.inr hc) hr rfl
    · exact .confirm hc rfl
  | report hc ht => cases ht; exact .report hc rfl
  | write hc hp ht =>
    by_cases hw : u.wphase = .weHigh
    · simp only [hw, exec, execWrStep, wPhase_ofCode_code, writeResult, clearPulses_ports] at ht
      cases hb : u.ports.busFault <;> simp only [hb] at ht <;> cases ht
      · exact .wrOk hc hw hb rfl
      · exact .wrErr hc hw hb rfl
    · rw [exec_wrStep _ hw] at ht
      cases ht
      exact .wr hc hp hw rfl
  | beginRun p hc hp ht =>
    rcases pair_cases p with rfl | rfl | rfl | rfl <;> cases ht
    · exact .sessionBegin hc (.inl hp) (by rw [hp])
    · exact .sessionBegin hc (.inr (.inl hp)) (by rw [hp])
    · exact .sessionBegin hc (.inr (.inr hp)) (by rw [hp])
    · exact .sessionOpen hc hp rfl
  | endRun p hc hp ht =>
    rcases pair_cases p with rfl | rfl | rfl | rfl <;> cases ht
    · exact .finEnd hc (.inl hp) (by rw [hp])
    · exact .finEnd hc (.inr (.inl hp)) (by rw [hp])
    · exact .finEnd hc (.inr (.inr hp)) (by rw [hp])
    · exact .finEndLast hc hp rfl

/-- What a step can do: a turn of the CORE, the block's reset, or an act that reaches only the channels and the
host's run. -/
inductive StepCase (s t : State) : Prop where
  | core (u : State) (hu : CoreTurn s u) (ht : CoreCase u t)
  | reset (rest : List EnvAct) (he : s.env = .reset :: rest) (ht : t = blockReset { s with env := rest })
  | outside (rest : List EnvAct) (rx tx : List Byte) (host : HostRun)
      (ht : t = { s with rx := rx, tx := tx, host := host, env := rest })
      (hrx : ∃ sent, rx = s.rx ++ sent) (htx : ∃ read, s.tx = read ++ tx)

/-- One step of the host's run reaches only the channels and the run. -/
theorem hostStep_reaches (a : Addr) (image : List Byte) (s : State) :
    ∃ rx tx host, hostStep a image s = { s with rx := rx, tx := tx, host := host } ∧
      (∃ sent, rx = s.rx ++ sent) ∧ ∃ read, s.tx = read ++ tx := by
  have receive : ∀ want e (good : HostRun → HostRun),
      ∃ rx tx host, hostReceive want e (fun v => { v with host := good v.host }) s =
        { s with rx := rx, tx := tx, host := host } ∧
        (∃ sent, rx = s.rx ++ sent) ∧ ∃ read, s.tx = read ++ tx := by
    intro want e good
    unfold hostReceive
    split
    · exact ⟨s.rx, s.tx, s.host, rfl, ⟨[], by simp⟩, [], rfl⟩
    · rename_i r rest hr
      split
      · exact ⟨s.rx, rest, _, rfl, ⟨[], by simp⟩, [r], by simp [hr]⟩
      · exact ⟨s.rx, rest, _, rfl, ⟨[], by simp⟩, [r], by simp [hr]⟩
  unfold hostStep
  split
  · exact ⟨s.rx, s.tx, _, rfl, ⟨[], by simp⟩, [], rfl⟩
  · cases s.host.phase
    · exact ⟨_, s.tx, _, rfl, ⟨_, rfl⟩, [], rfl⟩
    · exact receive _ _ (fun h => { h with phase := .sendLo })
    · exact ⟨_, s.tx, _, rfl, ⟨_, rfl⟩, [], rfl⟩
    · exact ⟨_, s.tx, _, rfl, ⟨_, rfl⟩, [], rfl⟩
    · simp only [hostSendImage]
      split
      · exact ⟨_, s.tx, _, rfl, ⟨_, rfl⟩, [], rfl⟩
      · exact ⟨_, s.tx, _, rfl, ⟨_, rfl⟩, [], rfl⟩
    · exact receive _ _ (fun h => { h with phase := .idle, result := .ok image.length })

theorem step_case {s t : State} (h : step s = .next t) : StepCase s t := by
  cases he : s.env with
  | nil => exact .core s (.inl ⟨he, rfl⟩) (core_case (step_core he ▸ h))
  | cons a rest =>
    have hs := step_act he
    rw [h] at hs
    cases a with
    | core dt p e => exact .core _ (.inr ⟨dt, p, e, rest, he, rfl⟩) (core_case hs.symm)
    | send b => cases hs; exact .outside rest _ s.tx s.host rfl ⟨_, rfl⟩ ⟨[], rfl⟩
    | drain => cases hs; exact .outside rest s.rx _ s.host rfl ⟨[], by simp⟩ ⟨s.tx.take 1, by cases s.tx <;> rfl⟩
    | reset => cases hs; exact .reset rest he rfl
    | host e =>
      simp only [fetchAct, fetchHost] at hs
      split at hs
      · cases hs; exact .outside rest s.rx s.tx _ rfl ⟨[], by simp⟩ ⟨[], rfl⟩
      · cases hs
        obtain ⟨rx, tx, hh, h1, h2, h3⟩ := hostStep_reaches (setLink e { s with env := rest }).host.start
          (setLink e { s with env := rest }).host.image (setLink e { s with env := rest })
        exact .outside rest rx tx hh (by rw [h1]; rfl) h2 h3
    | upload a im e =>
      cases hs
      obtain ⟨rx, tx, hh, h1, h2, h3⟩ := hostStep_reaches a im
        { s with env := rest, host := { s.host with phase := .idle, linkError := e } }
      exact .outside rest rx tx hh (by rw [h1]) h2 h3

/-! ### Traces and images -/

@[simp] theorem unwarned_append (a b : List OutEvent) : unwarned (a ++ b) = unwarned a ++ unwarned b :=
  List.filter_append ..

@[simp] theorem unwarned_bus (v : Byte) : unwarned [.bus v] = [.bus v] := rfl
@[simp] theorem unwarned_set (l : Line) (v : Level) : unwarned [.set l v] = [.set l v] := rfl
@[simp] theorem unwarned_wait (g : Guard) : unwarned [.wait g] = [.wait g] := rfl
@[simp] theorem unwarned_tx (b : Byte) : unwarned [.tx b] = [.tx b] := rfl
@[simp] theorem unwarned_result (r : ResultRecord) : unwarned [.result r] = [.result r] := rfl
@[simp] theorem unwarned_warn : unwarned [.warn] = [] := rfl

/-- The cursor after one byte and `n` more. -/
theorem cursor_shift (a : Addr) (n : Nat) : a + 1 + BitVec.ofNat 16 n = a + BitVec.ofNat 16 (n + 1) := by
  rw [BitVec.ofNat_add, BitVec.add_assoc, BitVec.add_comm (BitVec.ofNat 16 n)]; rfl

/-- One byte more at the end of a run of data bytes. -/
theorem imageTrain_append (on : Level) (d : Byte) (ds : List Byte) (a : Addr) :
    imageTrain on a (ds ++ [d]) = imageTrain on a ds ++ writeTrain on (a + BitVec.ofNat 16 ds.length) d := by
  induction ds generalizing a with
  | nil => simp [imageTrain]
  | cons x xs ih => simp only [List.cons_append, imageTrain, ih, List.length_cons, List.append_assoc, cursor_shift]

theorem writeImage_append (d : Byte) (ds : List Byte) (m : Memory) (a : Addr) :
    writeImage m a (ds ++ [d]) = Memory.write (writeImage m a ds) (a + BitVec.ofNat 16 ds.length).toNat d := by
  induction ds generalizing m a with
  | nil => simp [writeImage]
  | cons x xs ih => simp only [List.cons_append, writeImage, ih, List.length_cons, cursor_shift]

end Sys2Proof.Safety
end

