-- ==== Sys2Proof/Tests/Slice0.lean ====
section
/-! SUPPORT. The model's own tests: words written out from the spec, one small step at a time with expectations from
95_test_vectors.md, and a witness for every statement that has hypotheses. -/

namespace Sys2Proof.Tests

open Sys2Proof.Machine Sys2Proof.Safety

/-! ### Well-formedness: an ill-formed term for each check, refused (R173, R186, R190, R126, R125) -/

theorem test_wf_skip : (Instr.idleSkip 0x55).wellFormed = false ∧ (Instr.idleSkip 0x54).wellFormed = true := by decide

theorem test_wf_data : (Instr.strData 0x45).wellFormed = false ∧ (Instr.strData 0x55).wellFormed = true := by decide

theorem test_wf_step : (Instr.wrStep 15).wellFormed = false ∧ (Instr.wrStep 14).wellFormed = true := by decide

theorem test_wf_write : (Instr.writeByte 15).wellFormed = false ∧ (Instr.writeByte 0).wellFormed = true := by decide

theorem test_wf_strobe : (Instr.wePulse 3).wellFormed = false ∧ (Instr.wePulse 2).wellFormed = true := by decide

/-! ### Decoding: words written out bit by bit from 30_encoding.md R97, R98, R107 (vectors V1, V2) -/

theorem test_decode_idle :
    decode (.event .idleWait 0 0b0001010101) = .ok .idleStart ∧
    decode (.event .idleWait 0 0b0001000101) = .ok (.idleSkip 0x45) ∧
    decode (.event .idleWait 1 0b0001010100) = .ok (.idleSkip 0x54) ∧
    decode (.event .idleWait 0 0b0100000000) = .ok .idleTmo ∧
    decode (.event .idleWait 0 0b1000000000) = .ok .idleClosed := by decide

theorem test_decode_header :
    decode (.event .hdrWait 0 0b0001010101) = .ok (.hdrLo 0x55) ∧
    decode (.event .hdrWait 1 0b0001000101) = .ok (.hdrHi 0x45) ∧
    decode (.event .hdrWait 1 0b0100000000) = .ok .hdrTmo ∧
    decode (.event .hdrWait 0 0b1000000000) = .ok .hdrClosed := by decide

theorem test_decode_streaming :
    decode (.event .strWait 0 0b0001000101) = .ok .strEnd ∧
    decode (.event .strWait 0 0b0001000100) = .ok (.strData 0x44) ∧
    decode (.event .strWait 0 0b0001010101) = .ok (.strData 0x55) ∧
    decode (.event .strWait 0 0b0100000000) = .ok .strTmo ∧
    decode (.event .strWait 0 0b1000000000) = .ok .strClosed := by decide

/-- Kind 3 is no event, and no event is taken away from a wait point (R96, R97). -/
theorem test_decode_no_event :
    decode (.event .strWait 0 0b1100000000) = .error .noEvent ∧
    decode (.event .write 0 0b0001010101) = .error .notAWaitPoint := by decide

theorem test_decode_loop :
    decode (.control .loop 0b000101011) = .ok .ack ∧
    decode (.control .loop 0b001100111) = .ok (.sessionBegin 3) ∧
    decode (.control .loop 0b010111000) = .ok (.wrStep 12) ∧
    decode (.control .loop 0b011000000) = .ok .confirm ∧
    decode (.control .loop 0b011101010) = .ok (.finEnd 1) ∧
    decode (.control .loop 0b100000000) = .ok .finReport := by decide

theorem test_decode_operations :
    decode (.control .call 0b001100010) = .ok (.beginSession 1) ∧
    decode (.control .call 0b010100000) = .ok (.writeByte 0) ∧
    decode (.control .call 0b011101110) = .ok (.endSession 3) ∧
    decode (.control .part 0b010100110) = .ok (.latchAh 3) ∧
    decode (.control .part 0b010101000) = .ok (.latchAl 0) ∧
    decode (.control .part 0b010110011) = .ok (.latchD 1) ∧
    decode (.control .part 0b010111100) = .ok (.wePulse 2) ∧
    decode (.control .ret 0b010111100) = .ok .wrOk ∧
    decode (.control .ret 0b010111101) = .ok .wrErr := by decide

/-- Phase 15 of a write, a phase of the other operation, and an unused control point select no row. -/
theorem test_decode_no_row :
    decode (.control .loop 0b010111110) = .error .noRow ∧
    decode (.control .part 0b010111110) = .error .noRow ∧
    decode (.control .loop 0b001101000) = .error .noRow ∧
    decode (.control .loop 0b100100000) = .error .noRow := by decide

/-- `UPLOAD 0x1000, [0x00, 0xFF, 0x42]` is `55 00 10 00 FF 42 45` (vector V2). -/
theorem test_decode_host :
    decode (.host [0x55, 0x00, 0x10, 0x00, 0xFF, 0x42, 0x45]) = .ok (.hUpload 0x1000 [0x00, 0xFF, 0x42]) ∧
    decode (.host [0x55, 0x00, 0x00, 0x45]) = .ok (.hUpload 0x0000 []) ∧
    decode (.host [0x55, 0x00, 0x00]) = .error .notAnUpload := by decide

theorem test_encode_host :
    encode (.hUpload 0xBEEF [0xDE, 0xAD]) = .host [0x55, 0xEF, 0xBE, 0xDE, 0xAD, 0x45] := by decide

/-- The header assembly of vector V2. -/
theorem test_header :
    headerAddress 0x12 0x34 = 0x1234 ∧ headerAddress 0x55 0x45 = 0x5545 ∧ headerAddress 0xFF 0xFE = 0xFFFE := by decide

theorem test_table_words :
    decodeTableWord 10 0x055 = some .idleStart ∧ decodeTableWord 16 0x045 = some .strEnd ∧
    decodeTableWord 9 0b000100000 = some .ack ∧ decodeTableWord 9 0b010100000 = some (.wrStep 0) ∧
    decodeTableWord 16 0b000100000 = some .ack ∧ decodeTableWord 16 0x155 = some .idleTmo ∧
    decodeTableWord 24 0x550010 = some (.hUpload 0x1000 []) ∧ decodeTableWord 24 0x100055 = some (.hUpload 0x1000 []) ∧
    decodeTableWord 24 0x540010 = none := by decide

/-! ### States for the tests: parameters and latches with plain values -/

/-- The reset state with numbers for what the spec leaves open. -/
def base : State := { State.reset with
  params := { leActive := 1, tLatch := 1, tWe := 1, tSettle := 100, tByte := 1000000, tIdlePoll := 10, tHdr := 20 }
  latches := { ah := 0x00, al := 0x00, dl := 0x00 } }

/-- Lines inside a session. -/
def begunLines : BusLines := { BusLines.atReset 1 with trstN := 0, csN := 0, loeN := 0 }

/-- A session that has written one byte. -/
def session : Session := { valid := true, startAddress := 0x1000, cursor := 0x1001, bytesWritten := 1, startedAt := 500 }

/-- Idle with a byte waiting. -/
def idle (b : Byte) : State := { base with rx := [b] }

def ackPoint : State := { base with cp := .ackTx, hdrCnt := 1 }

def header (n : BitVec 1) : State := { base with cp := .hdrWait, hdrCnt := n, hdrLo := 0x55, now := 7 }

def beginning (p : SPhase) (l : BusLines) : State :=
  { base with cp := .beginRun, sphase := p, lines := l, sess := { Session.cleared with startAddress := 0x4555 } }

def streaming : State := { base with cp := .strWait, lines := begunLines, sess := session, now := 512 }

def confirming : State := { streaming with cp := .confirmTx }

def writing (p : WPhase) : State :=
  { streaming with cp := .write, wphase := p, wr := { addr := 0x1001, data := 0xEF } }

/-- The strobe low, the latches loaded. -/
def strobing (p : WPhase) : State :=
  { writing p with
    lines := { begunLines with weN := 0 }, latches := { ah := 0x10, al := 0x01, dl := 0xEF }, pulseOk := true }

def ending (p : SPhase) (l : BusLines) (e : ErrKind) : State :=
  { base with cp := .endRun, sphase := p, lines := l, err := e, sess := session, tEnd := 900 }

def reporting (e : ErrKind) : State := { base with cp := .report, err := e, sess := session, tEnd := 512 }

/-- One field of the next state, if there is one. -/
def field {α : Type} (o : Answer) (f : State → α) : Option α :=
  match o with
  | .next t => some (f t)
  | .fault _ => none
  | .refused _ => none

/-! ### One step each (vectors V3 to V5) -/

theorem test_idleStart : field (step (idle 0x55)) (fun t => (t.cp, t.rx, t.tx)) = some (.ackTx, [], []) := by decide

theorem test_idleSkip : field (step (idle 0x45)) (fun t => (t.cp, t.rx, t.tx)) = some (.idleWait, [], []) := by decide

theorem test_idleTmo :
    field (step { base with timer := { loadedAt := 0, expired := true } })
      (fun t => (t.cp, t.trace, t.timer.expired, t.now)) = some (.idleWait, [], false, 0) := by decide

theorem test_idleClosed :
    field (step { base with ports := { rxClosed := true, txReady := true, busFault := false } })
      (fun t => (t.cp, t.trace, t.ports.rxClosed)) = some (.idleWait, [], false) := by decide

theorem test_ack :
    field (step ackPoint) (fun t => (t.cp, t.hdrCnt, t.tx, t.trace)) = some (.hdrWait, 0, [0x41], [.tx 0x41]) := by
  decide

/-- A channel that does not accept holds the block (70_reset_and_hazards.md R298). -/
theorem test_ack_waits :
    field (step { ackPoint with ports := { rxClosed := false, txReady := false, busFault := false } })
      (fun t => (t.cp, t.tx)) = some (.ackTx, []) := by decide

theorem test_hdrLo :
    field (step { header 0 with rx := [0x45] }) (fun t => (t.hdrLo, t.hdrCnt, t.cp)) = some (0x45, 1, .hdrWait) := by
  decide

theorem test_hdrHi :
    field (step { header 1 with rx := [0x45] }) (fun t => (t.sess.startAddress, t.hdrCnt, t.sphase, t.cp)) =
      some (0x4555, 0, .bReset, .beginRun) := by decide

theorem test_hdrTmo :
    field (exec .hdrTmo (header 1)) (fun t => (t.err, t.tEnd, t.hdrCnt, t.sphase, t.cp)) =
      some (.truncatedHeader, 7, 1, .eLoe, .endRun) := by decide

theorem test_hdrClosed :
    field (step { header 1 with ports := { rxClosed := true, txReady := true, busFault := false } })
      (fun t => (t.cp, t.err, t.hdrCnt)) = some (.hdrWait, .none, 1) := by decide

theorem test_sessionBegin :
    field (step (beginning .bLoe { begunLines with loeN := 1 }))
      (fun t => (t.lines.loeN, t.sess.cursor, t.sess.valid, t.sphase, t.cp)) =
      some (0, 0x4555, true, .sIdle, .strWait) := by decide

theorem test_beginSession :
    field (exec (.beginSession 0) base) (fun t => (t.trace, t.lines.trstN, t.lines.csN, t.lines.loeN)) =
      some ([.set .trstN 0, .wait .settle, .set .csN 0, .set .loeN 0], 0, 0, 0) := by decide

theorem test_strTmo :
    field (exec .strTmo streaming) (fun t => (t.trace, t.warnTimeout, t.cp)) = some ([.warn], true, .strWait) := by decide

/-- A timeout may come at any moment and takes no time of its own: the elapsed time of program P7 can be its guards'. -/
theorem test_strTmo_at_once :
    field (step { streaming with env := [.core 0 base.ports true] }) (fun t => (t.trace, t.now, t.timer)) =
      some ([.warn], 512, { loadedAt := 512, expired := false }) := by decide

theorem test_strEnd :
    field (step { streaming with rx := [0x45, 0x55] }) (fun t => (t.cp, t.sess.bytesWritten, t.rx)) =
      some (.confirmTx, 1, [0x55]) := by decide

theorem test_strClosed :
    field (exec .strClosed streaming) (fun t => (t.err, t.tEnd, t.sess.bytesWritten, t.cp)) =
      some (.streamClosed, 512, 1, .endRun) := by decide

theorem test_strData :
    field (step { streaming with rx := [0x55] }) (fun t => (t.wr, t.wphase, t.cp)) =
      some ({ addr := 0x1001, data := 0x55 }, .ahPut, .write) := by decide

theorem test_latchAh :
    field (exec (.latchAh 0) { base with wr := { addr := 0xABCD, data := 0xEF } }) (fun t => (t.trace, t.latches.ah)) =
      some ([.bus 0xAB, .set .leAh 1, .wait .latch, .set .leAh 0], 0xAB) := by decide

/-- The release alone, from the asserted line: the latch takes the bus. -/
theorem test_latchAl :
    field (exec (.latchAl 3) { base with lines := { begunLines with bus := 0xCD, leAl := 1 } })
      (fun t => (t.trace, t.latches.al)) = some ([.set .leAl 0], 0xCD) := by decide

/-- With `LE_ACTIVE_LEVEL = 0` the enable levels are inverted (vector V3). -/
theorem test_latchD :
    field (exec (.latchD 0) { base with
      params := { base.params with leActive := 0 }
      lines := BusLines.atReset 0
      wr := { addr := 0xABCD, data := 0xEF } }) (fun t => (t.trace, t.latches.dl)) =
      some ([.bus 0xEF, .set .leD 0, .wait .latch, .set .leD 1], 0xEF) := by decide

theorem test_wePulse :
    field (exec (.wePulse 0) { base with lines := begunLines, latches := { ah := 0xFF, al := 0xFE, dl := 0x42 } })
      (fun t => (t.trace, t.mem)) = some ([.set .weN 0, .wait .we, .set .weN 1], [(0xFFFE, 0x42)]) := by decide

/-- A chip-select that rises in the pulse keeps the RAM as it is (20_memory.md R69). -/
theorem test_wePulse_unselected :
    field (exec (.wePulse 0) base) (fun t => (t.mem, t.lines.weN)) = some ([], 1) := by decide

theorem test_writeByte :
    field (exec (.writeByte 0) { base with lines := begunLines, wr := { addr := 0xABCD, data := 0xEF } })
      (fun t => (t.latches, t.mem, t.lines.bus, t.trace.length)) =
      some ({ ah := 0xAB, al := 0xCD, dl := 0xEF }, [(0xABCD, 0xEF)], 0xEF, 15) := by decide

/-- Outside a session the pulses are driven and the RAM stays (20_memory.md R82). -/
theorem test_writeByte_outside :
    field (exec (.writeByte 0) { base with wr := { addr := 0xABCD, data := 0xEF } })
      (fun t => (t.latches.ah, t.mem, t.trace.length, t.wrRet)) = some (0xAB, [], 15, .ok) := by decide

theorem test_wrStep :
    field (step (writing .ahPut)) (fun t => (t.trace, t.wphase, t.cp)) = some ([.bus 0x10], .ahAssert, .write) := by
  decide

/-- The last phase stores, counts and returns in one step (42_upload_protocol.md R190, R187). -/
theorem test_wrStep_last :
    field (step (strobing .weHigh)) (fun t => (t.mem, t.sess.cursor, t.sess.bytesWritten, t.cp)) =
      some ([(0x1001, 0xEF)], 0x1002, 2, .strWait) := by decide

theorem test_wrOk :
    field (exec .wrOk { writing .weHigh with sess := { session with cursor := 0xFFFF } })
      (fun t => (t.sess.cursor, t.sess.bytesWritten, t.wphase, t.cp)) = some (0x0000, 2, .wIdle, .strWait) := by decide

theorem test_wrErr :
    field (exec .wrErr (writing .weHigh)) (fun t => (t.err, t.sess.bytesWritten, t.tEnd, t.cp)) =
      some (.busError, 1, 512, .endRun) := by decide

theorem test_confirm :
    field (step confirming) (fun t => (t.tx, t.tEnd, t.sphase, t.err, t.cp)) =
      some ([0x4B], 512, .eLoe, .none, .endRun) := by decide

theorem test_finEnd :
    field (step (ending .eSettle (BusLines.atReset 1) .none)) (fun t => (t.trace, t.sphase, t.cp)) =
      some ([.wait .settle], .sIdle, .report) := by decide

theorem test_endSession :
    field (exec (.endSession 0) streaming) (fun t => (t.trace, t.lines.loeN, t.lines.csN, t.lines.trstN)) =
      some ([.set .loeN 1, .set .csN 1, .set .trstN 1, .wait .settle], 1, 1, 1) := by decide

theorem test_finReport :
    field (step (reporting .none)) (fun t => (t.res, t.sess, t.cp)) =
      some ({ status := 0, kind := .none, bytes := 1, start := 0x1000, elapsed := 12 }, Session.cleared, .idleWait) := by
  decide

/-- A failure reports no bytes (42_upload_protocol.md R194). -/
theorem test_finReport_failed :
    field (step (reporting .streamClosed)) (fun t => (t.res, t.err, t.resValid)) =
      some ({ status := 1, kind := .streamClosed, bytes := 0, start := 0x1000, elapsed := 12 }, .none, true) := by decide

theorem test_hUpload :
    field (exec (.hUpload 0x1000 [0x00]) base) (fun t => (t.rx, t.host.phase)) = some ([0x55], .readAck) := by decide

/-- A wrong acknowledge ends the run at once (43_host_uploader.md R222, vector X8). -/
theorem test_hUpload_wrong_ack :
    field (exec (.hUpload 0x0000 [0x01]) { base with tx := [0x00], host := { base.host with phase := .readAck } })
      (fun t => (t.rx, t.host.phase, t.host.result)) = some ([], .idle, .err .unexpectedAck) := by decide

/-- Reset between assert and release of the strobe: the cell holds some byte, the lines rest, nothing is sent
(70_reset_and_hazards.md R283). -/
theorem test_reset_in_pulse :
    field (step { strobing .weHold with env := [.reset] })
      (fun t => (t.cp, t.lines == BusLines.atReset 1, t.mem.map Prod.fst, t.tx, t.draws)) =
      some (.idleWait, true, [0x1001], [], 4) := by decide

/-- A reply that the host has not asked for can stay or go (43_host_uploader.md; 95_test_vectors.md P5; log 13). -/
theorem test_drain :
    field (step { base with tx := [0x41, 0x4B], env := [.drain] }) (fun t => (t.tx, t.rx)) = some ([0x4B], []) := by
  decide

/-! ### A table word placed after reset is what the first step runs -/

theorem test_place_start :
    field (step (State.reset.withFetchWord 16 0x055)) (fun t => t.cp) = some .ackTx := by decide

theorem test_place_end :
    field (step (State.reset.withFetchWord 16 0x045)) (fun t => t.cp) = some .confirmTx := by decide

theorem test_place_ack :
    field (step (State.reset.withFetchWord 9 0b000100000)) (fun t => (t.cp, t.tx)) = some (.hdrWait, [0x41]) := by decide

theorem test_place_upload :
    field (step (State.reset.withFetchWord 24 0x553412)) (fun t => (t.rx, t.host.start)) = some ([0x55], 0x1234) := by
  decide


/-! ### Witnesses: for each statement with hypotheses, states and operands that meet them, clause by clause -/

/-- Consistency does not look at what waits at the ports. -/
theorem consistent_inputs {s : State} (rx : List Byte) (p : InPorts) (w : WaitTimer) (h : Consistent s) :
    Consistent { s with rx := rx, ports := p, timer := w } :=
  ⟨h.control, h.error, h.flag, h.sessionLines, h.strobes, h.write, h.cursor, h.outputEnable⟩

theorem base_consistent : Consistent base := by
  constructor <;>
    simp [base, State.reset, BusLines.atReset, Params.defaults, Session.cleared, ControlConsistent, ErrorConfined,
      SessionFlagRight, SessionLinesRight, StrobesRight, WriteInFlightRight, CursorCounts, sessionLive, sessionLevels,
      releaseLevel, busByte, latchesLoaded]

theorem header_consistent (n : BitVec 1) : Consistent (header n) := by
  constructor <;>
    simp [header, base, State.reset, BusLines.atReset, Params.defaults, Session.cleared, ControlConsistent,
      ErrorConfined, SessionFlagRight, SessionLinesRight, StrobesRight, WriteInFlightRight, CursorCounts, sessionLive,
      sessionLevels, releaseLevel, busByte, latchesLoaded]

theorem streaming_consistent : Consistent streaming := by
  constructor <;>
    simp [streaming, begunLines, session, base, State.reset, BusLines.atReset, ControlConsistent, ErrorConfined,
      SessionFlagRight, SessionLinesRight, StrobesRight, WriteInFlightRight, CursorCounts, sessionLive, sessionLevels,
      releaseLevel, busByte, latchesLoaded]

/-- The strobe low in a write of the session. -/
theorem strobing_consistent : Consistent (strobing .weHigh) := by
  constructor <;>
    simp [strobing, writing, streaming, begunLines, session, base, State.reset, BusLines.atReset, ControlConsistent,
      ErrorConfined, SessionFlagRight, SessionLinesRight, StrobesRight, WriteInFlightRight, CursorCounts, sessionLive,
      sessionLevels, releaseLevel, busByte, latchesLoaded, addrHigh, addrLow]

/-- The block as reset leaves it, about to take the bus, or about to give it back after a truncated header. -/
def bracket (cp : ControlPoint) (p : SPhase) (e : ErrKind) : State := { base with cp := cp, sphase := p, err := e }

theorem bracket_consistent :
    Consistent (bracket .beginRun .bReset .none) ∧ Consistent (bracket .endRun .eLoe .truncatedHeader) := by
  constructor <;> constructor <;>
    simp [bracket, base, State.reset, BusLines.atReset, Params.defaults, Session.cleared, ControlConsistent,
      ErrorConfined, SessionFlagRight, SessionLinesRight, StrobesRight, WriteInFlightRight, CursorCounts, sessionLive,
      sessionLevels, releaseLevel, busByte, latchesLoaded, SPhase.inBegin, SPhase.inEnd]

/-- A state whose input ports are given: closed stream, transmit channel ready, injected fault. -/
def ported (s : State) (closed ready fault : Bool) : State :=
  { s with ports := { rxClosed := closed, txReady := ready, busFault := fault } }

/-- A state whose wait has run out. -/
def expired (s : State) : State := { s with timer := { loadedAt := 0, expired := true } }

/-- A state in which the host is at a phase of its run. -/
def hosting (ph : HostPhase) (image : List Byte) (fails : Bool) : State :=
  { base with host := {
      phase := ph, start := 0x1234, image := image, left := image, linkError := fails, result := .nothing } }

theorem witness_encoding :
    (∃ i : Instr, i.wellFormed = true ∧ i = .wrStep 14) ∧ (Instr.hUpload 0xFFFF [0x45, 0xFF]).wellFormed = true ∧
    (∃ w i, decode w = .ok i ∧ i = .latchD 3) ∧
    (∃ k ∈ table, k.fits (.event .strWait 1 0x045) = true ∧ k = Instr.row (.strData 0)) ∧
    Instr.row .wrErr ∈ table ∧ (Instr.row .wrErr).fits (.control .ret 0b010111101) = true := by
  exact ⟨⟨.wrStep 14, by decide, rfl⟩, by decide, ⟨.control .part 0b010110110, .latchD 3, by decide, rfl⟩,
    ⟨Instr.row (.strData 0), by decide, by decide, rfl⟩, by decide, by decide⟩

theorem witness_core_turn :
    (CoreTurn base base ∧ base.cp.isWait = true ∧ pendingEvent base = none) ∧
    (CoreTurn (idle 0x54) (idle 0x54) ∧ pendingEvent (idle 0x54) = some (.byte 0x54) ∧
      decode (.event (idle 0x54).cp (idle 0x54).hdrCnt (eventWord (.byte 0x54))) = .ok (.idleSkip 0x54)) ∧
    (CoreTurn ackPoint ackPoint ∧ ackPoint.cp.isWait = false ∧
      decode (.control .loop (controlWord ackPoint)) = .ok .ack) ∧
    ∃ u, CoreTurn { base with env := [.core 5 base.ports true] } u ∧ pendingEvent u = some .timeout := by
  exact ⟨⟨.inl ⟨rfl, rfl⟩, rfl, rfl⟩, ⟨.inl ⟨rfl, rfl⟩, rfl, by decide⟩, ⟨.inl ⟨rfl, rfl⟩, rfl, by decide⟩,
    ⟨_, .inr ⟨5, base.ports, true, [], rfl, rfl⟩, rfl⟩⟩

theorem witness_host_turn :
    (∃ s : State, s.env = .host true :: [] ∧ s.host.phase ≠ .idle) ∧
    (∃ s : State, s.env = .upload 0xFFFF [0x00] false :: []) ∧ (∃ s : State, s.env = .send 0x55 :: []) ∧
    ∃ s : State, s.env = .drain :: [] :=
  ⟨⟨{ hosting .readAck [] false with env := [.host true] }, rfl, by decide⟩,
    ⟨{ base with env := [.upload 0xFFFF [0x00] false] }, rfl⟩, ⟨{ base with env := [.send 0x55] }, rfl⟩,
    ⟨{ base with env := [.drain] }, rfl⟩⟩

theorem witness_idle :
    (idle 0x55).env = [] ∧ (idle 0x55).cp = .idleWait ∧ (idle 0x55).rx.head? = some 0x55 ∧ (0x54 : Byte) ≠ 0x55 := by
  decide

theorem witness_send_points :
    (ackPoint.cp = .ackTx ∧ ackPoint.ports.txReady = true ∧ (ported ackPoint false false false).ports.txReady = false) ∧
    confirming.cp = .confirmTx ∧ confirming.ports.txReady = true ∧
    (ported confirming false false false).cp = .confirmTx ∧ (ported confirming false false false).ports.txReady = false := by
  decide

theorem witness_header :
    ((header 0).cp = .hdrWait ∧ (header 0).hdrCnt = 0) ∧ (header 1).cp = .hdrWait ∧ (header 1).hdrCnt = 1 := by decide

theorem witness_header_timeout (n : BitVec 1) :
    Consistent (expired (header n)) ∧ (expired (header n)).env = [] ∧ (expired (header n)).cp = .hdrWait ∧
    pendingEvent (expired (header n)) = some .timeout :=
  ⟨consistent_inputs [] base.ports { loadedAt := 0, expired := true } (header_consistent n), rfl, rfl, rfl⟩

theorem streaming_quiet (rx : List Byte) : Quiet { streaming with rx := rx } := ⟨rfl, rfl, rfl, rfl⟩

theorem witness_streaming_byte (b : Byte) (rest : List Byte) :
    ∃ s, Consistent s ∧ Quiet s ∧ s.cp = .strWait ∧ s.rx = b :: rest :=
  ⟨{ streaming with rx := b :: rest },
    consistent_inputs (b :: rest) base.ports base.timer streaming_consistent, streaming_quiet _, rfl, rfl⟩

theorem witness_streaming_bytes_are_not_the_marker : (0x44 : Byte) ≠ 0x45 ∧ (0x46 : Byte) ≠ 0x45 ∧ (0x55 : Byte) ≠ 0x45 := by
  decide

theorem witness_streaming_closed :
    Consistent (ported streaming true true false) ∧ (ported streaming true true false).env = [] ∧
    (ported streaming true true false).cp = .strWait ∧ pendingEvent (ported streaming true true false) = some .closed :=
  ⟨consistent_inputs [] { rxClosed := true, txReady := true, busFault := false } base.timer streaming_consistent,
    rfl, rfl, rfl⟩

theorem witness_write_returns : (writing .weHigh).cp = .write ∧ (writing .weHigh).wphase = .weHigh := by decide

theorem witness_report :
    ((reporting .none).cp = .report ∧ (reporting .none).err = .none ∧ (reporting .none).sess.valid = true) ∧
    (reporting .busError).err ≠ .none ∧
    ({ reporting .truncatedHeader with sess := Session.cleared } : State).sess.valid = false := by decide

/-- Steps that FailureReportsNoBytes speaks of, from CP_END, CP_STR_WAIT and CP_REPORT, with an act in the last; the
entries into failure are in `witness_failures`. -/
theorem witness_count_stays :
    (∃ s t, step s = .next t ∧ s.env.head? ≠ some .reset ∧ s.cp = .endRun) ∧
    (∃ s t, step s = .next t ∧ s.env.head? ≠ some .reset ∧ s.cp = .strWait) ∧
    ∃ s t, step s = .next t ∧ s.env.head? ≠ some .reset ∧ s.cp = .report ∧ t.cp = .report :=
  ⟨⟨ending .eLoe begunLines .busError, _, rfl, by decide, rfl⟩, ⟨streaming, _, rfl, by decide, rfl⟩,
    ⟨{ reporting .busError with env := [.send 0x00] }, _, rfl, by decide, rfl, rfl⟩⟩

theorem witness_failed_write_elsewhere : (0x1002 : Addr) ≠ latchAddress (strobing .weHigh).latches := by decide

/-- The three ways into failure: each step's state has no error, and the next is `Failed`. -/
theorem witness_failures :
    (∃ t, step (expired (header 1)) = .next t ∧ (expired (header 1)).err = .none ∧ fsm t = .failed ∧
      t.err = .truncatedHeader) ∧
    (∃ t, step (ported streaming true true false) = .next t ∧ fsm t = .failed ∧ t.err = .streamClosed) ∧
    (∃ t, step (ported (strobing .weHigh) false true true) = .next t ∧ fsm t = .failed ∧ t.err = .busError) ∧
    ErrKind.busError ≠ .none :=
  ⟨⟨_, rfl, rfl, rfl, rfl⟩, ⟨_, rfl, rfl, rfl⟩, ⟨_, rfl, rfl, rfl⟩, by decide⟩

theorem witness_cleanup :
    ∃ s t, step s = .next t ∧ s.cp = .endRun ∧ s.env.head? ≠ some .reset ∧ t.cp ≠ .endRun :=
  ⟨ending .eSettle (BusLines.atReset 1) .streamClosed, _, rfl, rfl, by decide, by decide⟩

theorem witness_begin :
    (bracket .beginRun .bReset .none).env = [] ∧ (bracket .beginRun .bReset .none).cp = .beginRun ∧
    (bracket .beginRun .bReset .none).sphase = .bReset ∧ (bracket .endRun .eLoe .none).cp = .endRun := by decide

theorem witness_bracket :
    (base.lines.trstN = 1 ∧ base.lines.csN = 1 ∧ base.lines.loeN = 1) ∧
    (∃ s, Consistent s ∧ s.cp = .beginRun) ∧ ∃ s, Consistent s ∧ s.cp = .endRun :=
  ⟨by decide, ⟨_, bracket_consistent.1, rfl⟩, ⟨_, bracket_consistent.2, rfl⟩⟩

/-- The strobe with the RAM selected and with it not, from its first and its last phase. -/
theorem witness_strobe :
    ({ base with lines := begunLines } : State).lines.weN = 1 ∧
    ({ base with lines := begunLines } : State).lines.csN = 0 ∧
    ({ base with lines := begunLines } : State).lines.loeN = 0 ∧
    base.lines.csN ≠ 0 ∧ (0 : BitVec 2) ≠ 3 ∧ (2 : BitVec 2) ≠ 3 := by decide

theorem witness_write_step :
    ((writing .ahPut).cp = .write ∧ (writing .ahPut).wphase.code = 0 ∧ (0 : BitVec 4) ≠ 14 ∧ (0 : BitVec 4) ≠ 15) ∧
    (writing .weHold).wphase.code = 13 ∧ (13 : BitVec 4) ≠ 14 ∧ (13 : BitVec 4) ≠ 15 := by decide

theorem witness_last_write_step :
    ((strobing .weHigh).ports.busFault = false ∧ (ported (strobing .weHigh) false true true).ports.busFault = true) ∧
    ((strobing .weHigh).lines.weN = 0 ∧ (strobing .weHigh).pulseOk = true ∧ (strobing .weHigh).lines.csN = 0 ∧
      (strobing .weHigh).lines.loeN = 0) ∧
    (writing .weHigh).cp = .write ∧ (writing .weHigh).wphase = .weHigh ∧ (writing .weHigh).pulseOk = false := by decide

theorem witness_whole_write :
    ((writing .ahPut).env = [] ∧ (writing .ahPut).cp = .write ∧ (writing .ahPut).wphase ≠ .wIdle ∧
      (writing .ahPut).wphase ≠ .weHigh ∧ (writing .ahPut).wphase.code = 0) ∧
    (strobing .weHigh).wphase.code = 14 ∧ (14 : BitVec 4) ≠ 15 := by decide

theorem witness_write_goes_on :
    ∃ s t, s.cp = .write ∧ s.wphase ≠ .wIdle ∧ s.wphase ≠ .weHigh ∧ s.env.head? ≠ some .reset ∧ step s = .next t :=
  ⟨writing .weHold, _, rfl, by decide, by decide, by decide, rfl⟩

theorem witness_host_steps :
    (hosting .readAck [] true).host.linkError = true ∧
    ((hosting .idle [] false).host.linkError = false ∧ (hosting .idle [] false).host.phase = .idle) ∧
    ((hosting .readAck [] false).host.phase = .readAck ∧ (hosting .readAck [] false).tx = []) ∧
    ({ hosting .readAck [] false with tx := [0x41] } : State).tx = [0x41] ∧
    (hosting .sendLo [] false).host.phase = .sendLo ∧ (hosting .sendHi [] false).host.phase = .sendHi ∧
    ((hosting .sendImage [0x01] false).host.phase = .sendImage ∧ (hosting .sendImage [0x01] false).host.left = [0x01]) ∧
    (hosting .sendImage [] false).host.left = [] ∧
    ((hosting .readConfirm [] false).host.phase = .readConfirm ∧ (hosting .readConfirm [] false).tx = []) ∧
    ({ hosting .readConfirm [] false with tx := [0x4B] } : State).host.phase = .readConfirm := by decide

theorem witness_host_frame :
    ∃ (s : State) (rest : List EnvAct), s.host.phase = .sendLo ∧ s.host.left = s.host.image ∧
      s.env = List.replicate (s.host.image.length + 3) (EnvAct.host false) ++ rest :=
  ⟨{ hosting .sendLo [0x01] false with env := List.replicate 4 (EnvAct.host false) }, [], rfl, rfl, rfl⟩

/-- The block's reset, in the middle of a latch pulse, of a strobe, and away from both. -/
theorem witness_reset :
    (∃ s : State, s.env = .reset :: [] ∧ s.wphase ≠ .alHold ∧ s.wphase ≠ .alRelease ∧ s.wphase ≠ .dHold ∧
      s.wphase ≠ .dRelease ∧ s.wphase ≠ .weHold ∧ s.wphase ≠ .weHigh) ∧
    ∃ (s : State) (a : Addr), s.env = .reset :: [] ∧ s.wphase ≠ .ahHold ∧ s.wphase ≠ .ahRelease ∧
      s.wphase = .weHigh ∧ a ≠ latchAddress s.latches :=
  ⟨⟨{ writing .ahHold with env := [.reset] }, rfl, by decide, by decide, by decide, by decide, by decide, by decide⟩,
    ⟨{ strobing .weHigh with env := [.reset] }, 0x1002, rfl, by decide, by decide, by decide, by decide⟩⟩

/-- The premise of StepKeepsConsistency, ConsistentStatesStep and TargetRunsOnlyOffTheBus, off the bus and on it. -/
theorem witness_consistent_step :
    (∃ s t, Consistent s ∧ step s = .next t) ∧ ∃ s t, Consistent s ∧ step s = .next t ∧ t.lines.csN = 0 :=
  ⟨⟨base, _, base_consistent, rfl⟩, ⟨strobing .weHigh, _, strobing_consistent, rfl, rfl⟩⟩

/-- A canonical RAM that a step writes to; the next state differs from the one before in the RAM. -/
theorem witness_ram_step :
    ∃ s t, s.mem.wf = true ∧ step s = .next t ∧ t.mem ≠ s.mem ∧ (0x1002 : Addr) ≠ latchAddress s.latches :=
  ⟨strobing .weHigh, _, by decide, rfl, by decide, by decide⟩

theorem witness_ram_step_reset :
    ∃ s t, step s = .next t ∧ t.mem ≠ s.mem ∧ s.env.head? = some .reset :=
  ⟨{ strobing .weHold with env := [.reset] }, _, rfl, by
    intro h; exact List.cons_ne_nil _ _ h, rfl⟩

theorem witness_replies : ∃ s t, RepliesOnly s ∧ step s = .next t ∧ t.tx = [0x41] :=
  ⟨ackPoint, _, ⟨by simp [ackPoint, base, State.reset], by simp [ackPoint, base, State.reset]⟩, rfl, rfl⟩

theorem witness_lines :
    ∃ s t, step s = .next t ∧ s.env.head? ≠ some .reset ∧ s.lines = linesOfTrace s.params.leActive s.trace ∧
      t.lines ≠ s.lines :=
  ⟨bracket .beginRun .bReset .none, _, rfl, by decide, by decide, by decide⟩

theorem witness_move :
    (∃ s t, step s = .next t ∧ t.cp ≠ s.cp ∧ s.env = []) ∧ ∃ s t, step s = .next t ∧ s.env.head? = some .reset ∧ t.cp ≠ s.cp :=
  ⟨⟨idle 0x55, _, rfl, by decide, rfl⟩, ⟨{ streaming with env := [.reset] }, _, rfl, rfl, by decide⟩⟩

theorem witness_events :
    (∃ b rest, (idle 0x55).rx = b :: rest) ∧
    ((ported base true true false).rx = [] ∧ (ported base true true false).ports.rxClosed = true) ∧
    (base.rx = [] ∧ (expired base).ports.rxClosed = false ∧ (expired base).timer.expired = true) ∧
    (∃ s u t, CoreTurn s u ∧ step s = .next t ∧ u.cp.isWait = false) ∧
    ∃ s u t, CoreTurn s u ∧ step s = .next t ∧ u.cp.isWait = true ∧ u.rx ≠ [] :=
  ⟨⟨0x55, [], rfl⟩, by decide, by decide, ⟨ackPoint, ackPoint, _, .inl ⟨rfl, rfl⟩, rfl, rfl⟩,
    ⟨idle 0x55, idle 0x55, _, .inl ⟨rfl, rfl⟩, rfl, rfl, by decide⟩⟩

theorem witness_wait_step : ∃ s u t, CoreTurn s u ∧ u.cp.isWait = true ∧ step s = .next t :=
  ⟨expired streaming, expired streaming, _, .inl ⟨rfl, rfl⟩, rfl, rfl⟩

/-- A timely timeout, at the bound itself. -/
def timely : State := { expired streaming with now := 1000000 }

theorem witness_timely_step :
    ∃ s u t, CoreTurn s u ∧ Timely u ∧ u.cp.isWait = true ∧ pendingEvent u = some .timeout ∧ step s = .next t :=
  ⟨timely, timely, _, .inl ⟨rfl, rfl⟩, fun _ => by simp [timely, expired, streaming, base, waitBound], rfl, rfl, rfl⟩

theorem witness_session_ends :
    (∃ s t, step s = .next t ∧ s.sess.valid = true ∧ t.sess.valid = false ∧ s.cp = .report) ∧
    ∃ s t, step s = .next t ∧ s.sess.valid = true ∧ t.sess.valid = false ∧ s.env.head? = some .reset :=
  ⟨⟨reporting .none, _, rfl, rfl, rfl, rfl⟩, ⟨{ streaming with env := [.reset] }, _, rfl, rfl, rfl, rfl⟩⟩

/-- A well-formed upload in the receive channel, of an empty image and of one that wraps (vectors X2, X4). -/
theorem witness_upload (image : List Byte) (rest : List Byte) :
    ∃ s, Consistent s ∧ Quiet s ∧ s.cp = .idleWait ∧
      s.rx = [0x55, (0xFFFF : Addr).extractLsb' 0 8, (0xFFFF : Addr).extractLsb' 8 8] ++ image ++ [0x45] ++ rest :=
  ⟨{ base with rx := [0x55, (0xFFFF : Addr).extractLsb' 0 8, (0xFFFF : Addr).extractLsb' 8 8] ++ image ++ [0x45] ++ rest },
    consistent_inputs _ base.ports base.timer base_consistent, ⟨rfl, rfl, rfl, rfl⟩, rfl, rfl⟩

theorem witness_upload_image : (∀ b ∈ ([0x01, 0x02, 0xFF] : List Byte), b ≠ 0x45) ∧ ∀ b ∈ ([] : List Byte), b ≠ 0x45 := by
  decide

/-- The upload of 00 FF to 0x1000 from the state of the tests. -/
def course : Upload := { start := 0x1000, image := [0x00, 0xFF], on := 1, mem := [], trace := [] }

/-- At its start, with the start marker waiting. -/
theorem witness_course_start :
    Consistent (idle 0x55) ∧ Uploading course [0x55, 0x00, 0x10, 0x00, 0xFF, 0x45] (idle 0x55) ∧
    Undisturbed [0x55, 0x00, 0x10, 0x00, 0xFF, 0x45] (idle 0x55) ∧ (∃ t, step (idle 0x55) = .next t) ∧
    ∀ b ∈ course.image, b ≠ 0x45 := by
  refine ⟨consistent_inputs [0x55] base.ports base.timer base_consistent, ⟨rfl, rfl, rfl, rfl, rfl⟩,
    ⟨by decide, fun u hu => ?_⟩, ⟨_, rfl⟩, by decide⟩
  rcases hu with ⟨_, rfl⟩ | ⟨_, _, _, _, h, _⟩
  · exact ⟨rfl, fun e _ he => by cases he; rfl⟩
  · cases h

/-- In Streaming after the first byte, with a timeout pending. -/
def onCourse : State := { expired streaming with
  mem := writeImage [] 0x1000 [0x00], trace := course.traceOf [0x00] ++ [.warn] }

theorem witness_course_timeout :
    Consistent onCourse ∧ Uploading course [0xFF, 0x45] onCourse ∧ Undisturbed [0xFF, 0x45] onCourse ∧
    ∃ t, step onCourse = .next t := by
  have h := streaming_consistent
  refine ⟨⟨h.control, h.error, h.flag, h.sessionLines, h.strobes, h.write, h.cursor, h.outputEnable⟩,
    ⟨rfl, rfl, [0x00], [0xFF], rfl, rfl, ⟨rfl, rfl, rfl⟩, by decide⟩, ⟨by decide, fun u hu => ?_⟩, ⟨_, rfl⟩⟩
  rcases hu with ⟨_, rfl⟩ | ⟨_, _, _, _, h, _⟩
  · exact ⟨rfl, fun e _ he => by cases he; simp [onCourse, expired, streaming]⟩
  · cases h

theorem witness_image_lands :
    (∃ (image : List Byte) (i : Nat), image.length ≤ 65536 ∧ i < image.length ∧
      ∀ j, j < image.length → (0x0002 : Addr).toNat ≠ ((0xFFFE : Addr).toNat + j) % 65536) ∧
    (List.replicate 65536 (0x00 : Byte)).length ≤ 65536 :=
  ⟨⟨[0xAA, 0xBB, 0xCC], 2, by decide, by decide, by decide⟩, Nat.le_of_eq List.length_replicate⟩

end Sys2Proof.Tests
end

section
/-! PROOF. The Bus Sequencer's statements (40_bus_sequencer.md): the latch operations, the lines that a write moves
and those it leaves alone, and the write as one unit. -/

namespace Sys2Proof.Machine

open Sys2Proof.Safety

/-! ### Runs of write phases -/

/-- Phases in two parts, one after the other. -/
theorem runWPhases_append (ps qs : List WPhase) (s : State) :
    runWPhases (ps ++ qs) s = runWPhases qs (runWPhases ps s) :=
  List.foldl_append

/-- No phase of a write changes the request in flight (40_bus_sequencer.md R133). -/
@[simp] theorem runWPhases_wr (ps : List WPhase) (s : State) : (runWPhases ps s).wr = s.wr := by
  induction ps generalizing s with
  | nil => rfl
  | cons p ps ih => rw [runWPhases_cons, ih, wPhaseStep_wr]

/-- A strobe leaves `we_n` at rest, wherever it stood before, and moves no other line (40_bus_sequencer.md R125). -/
theorem runWPhases_wePulse_lines (s : State) :
    (runWPhases (wePulseFrom 0) s).lines = { s.lines with weN := 1 } := rfl

/-- The lines after a whole write, wherever `we_n` stood before it (40_bus_sequencer.md R133). -/
theorem runWPhases_write_lines (s : State) :
    (runWPhases (writeByteFrom 0) s).lines = { s.lines with
      bus := s.wr.data, leAh := releaseLevel s, leAl := releaseLevel s, leD := releaseLevel s, weN := 1 } := by
  have parts : writeByteFrom 0 = latchAhFrom 0 ++ (latchAlFrom 0 ++ (latchDFrom 0 ++ wePulseFrom 0)) := rfl
  rw [parts, runWPhases_append, runWPhases_append, runWPhases_append, runWPhases_wePulse_lines, runWPhases_latchD,
    runWPhases_latchAl, runWPhases_latchAh]
  rfl

/-! ### The lines that are not the Bus Sequencer's -/

/-- `cs_n`, `oe_n`, `trst_n` and `loe_n`, the lines the Bus Sequencer does not own, stand alike
(40_bus_sequencer.md R137). -/
def SameForeignLines (l m : BusLines) : Prop :=
  l.csN = m.csN ∧ l.oeN = m.oeN ∧ l.trstN = m.trstN ∧ l.loeN = m.loeN

theorem SameForeignLines.refl (l : BusLines) : SameForeignLines l l := ⟨rfl, rfl, rfl, rfl⟩

theorem SameForeignLines.trans {l m n : BusLines} (h : SameForeignLines l m) (h' : SameForeignLines m n) :
    SameForeignLines l n := by
  obtain ⟨cs, oe, trst, loe⟩ := h
  obtain ⟨cs', oe', trst', loe'⟩ := h'
  exact ⟨cs.trans cs', oe.trans oe', trst.trans trst', loe.trans loe'⟩

theorem wPhaseStep_foreignLines (p : WPhase) (s : State) : SameForeignLines (wPhaseStep p s).lines s.lines := by
  cases p <;> exact ⟨rfl, rfl, rfl, rfl⟩

theorem runWPhases_foreignLines (ps : List WPhase) (s : State) :
    SameForeignLines (runWPhases ps s).lines s.lines := by
  induction ps generalizing s with
  | nil => exact .refl s.lines
  | cons p ps ih => exact (ih (wPhaseStep p s)).trans (wPhaseStep_foreignLines p s)

/-- WR.STEP moves the lines as its one phase does: what a write returns to moves none. -/
theorem exec_wrStep_lines (p : BitVec 4) (s : State) :
    ∃ t, exec (.wrStep p) s = .next t ∧ t.lines = (wPhaseStep (WPhase.ofCode p) s).lines := by
  rw [← wPhase_code_ofCode p, wPhase_ofCode_code]
  by_cases last : WPhase.ofCode p = .weHigh
  · simp only [last, exec, execWrStep, wPhase_ofCode_code]
    cases writeResult s
    · exact ⟨_, rfl, rfl⟩
    · exact ⟨_, rfl, rfl⟩
  · exact ⟨_, exec_wrStep s last, rfl⟩

/-- Every row of the Bus Sequencer moves the lines as some run of write phases does. -/
theorem exec_sequencer_lines {i : Instr}
    (h : (∃ p, i = .wrStep p ∨ i = .writeByte p) ∨
      (∃ p, i = .latchAh p ∨ i = .latchAl p ∨ i = .latchD p ∨ i = .wePulse p)) (s : State) :
    ∃ t ps, exec i s = .next t ∧ t.lines = (runWPhases ps s).lines := by
  rcases h with ⟨p, rfl | rfl⟩ | ⟨p, rfl | rfl | rfl | rfl⟩
  · obtain ⟨t, run, lines⟩ := exec_wrStep_lines p s
    exact ⟨t, [WPhase.ofCode p], run, lines⟩
  · exact ⟨_, writeByteFrom p, rfl, rfl⟩
  · exact ⟨_, latchAhFrom p, rfl, rfl⟩
  · exact ⟨_, latchAlFrom p, rfl, rfl⟩
  · exact ⟨_, latchDFrom p, rfl, rfl⟩
  · exact ⟨_, wePulseFrom p, rfl, rfl⟩

/-! ### A write in flight -/

/-- The inputs of a turn are no part of the control state, the request or the receive channel. -/
theorem coreTurn_keeps {s u : State} (turn : CoreTurn s u) :
    u.cp = s.cp ∧ u.wphase = s.wphase ∧ u.sphase = s.sphase ∧ u.wr = s.wr ∧ u.rx = s.rx := by
  obtain ⟨dt, ports, timer, env, rfl⟩ := coreTurn_frame turn
  exact ⟨rfl, rfl, rfl, rfl, rfl⟩

/-- Whatever the inputs of its turn, the CORE in a write does the phase that `wphase` names (40_bus_sequencer.md R127,
R131). -/
theorem step_inWrite {s u : State} (turn : CoreTurn s u) (hcp : s.cp = .write) (idle : s.wphase ≠ .wIdle)
    (last : s.wphase ≠ .weHigh) : step s = .next (wPhaseStep s.wphase (clearPulses u)) := by
  obtain ⟨cp, phase, -⟩ := coreTurn_keeps turn
  rw [← phase] at idle last ⊢
  rw [step_of_coreTurn turn, fetchCore_write (cp.trans hcp) idle]
  exact exec_wrStep _ last

end Sys2Proof.Machine

namespace Sys2Proof.Safety

open Sys2Proof.Machine

/-- Settles O32: each latch operation from its first phase, by the law that says it in full. -/
theorem latchOperationsLoadTheirLatch : Obligations.LatchOperationsLoadTheirLatch := by
  intro s
  have ah := runWPhases_latchAh s
  have al := runWPhases_latchAl s
  have d := runWPhases_latchD s
  refine ⟨⟨runWPhases (latchAhFrom 0) s, rfl, ?_, (congrArg State.now ah).ge⟩,
    ⟨runWPhases (latchAlFrom 0) s, rfl, ?_, (congrArg State.now al).ge⟩,
    ⟨runWPhases (latchDFrom 0) s, rfl, ?_, (congrArg State.now d).ge⟩⟩
  · rw [ah]; rfl
  · rw [al]; rfl
  · rw [d]; rfl

/-- Settles O36: the lines after a whole write, and every row of the Bus Sequencer as a run of write phases, none of
which drives a line that it does not own. -/
theorem sequencerDrivesItsOwnLines : Obligations.SequencerDrivesItsOwnLines := by
  refine ⟨fun s => ⟨_, rfl, ?_⟩, fun s i h => ?_⟩
  · have lines := runWPhases_write_lines s
    exact ⟨congrArg BusLines.bus lines, congrArg BusLines.leAh lines, congrArg BusLines.leAl lines,
      congrArg BusLines.leD lines, congrArg BusLines.weN lines, runWPhases_wr _ s⟩
  · obtain ⟨t, ps, run, lines⟩ := exec_sequencer_lines h s
    have foreign := runWPhases_foreignLines ps s
    rw [← lines] at foreign
    exact ⟨t, run, foreign⟩

/-- Settles O40: a turn of the CORE does the next phase, the reset is excluded, and every other act reaches only the
channels and the host's run. -/
theorem writeIsOneUnit : Obligations.WriteIsOneUnit := by
  refine ⟨fun s env hcp idle last => ?_, fun s t hcp idle last noReset h => ?_⟩
  · exact ⟨_, step_inWrite (.inl ⟨env, rfl⟩) hcp idle last, by simp [hcp]⟩
  · cases step_case h with
    | core u turn _ =>
      rw [step_inWrite turn hcp idle last] at h
      cases h
      obtain ⟨cp, -, sphase, wr, -⟩ := coreTurn_keeps turn
      simp [cp, hcp, sphase, wr]
    | reset rest head _ => simp [head] at noReset
    | outside rest rx tx host ht => subst ht; exact ⟨hcp, rfl, rfl, .inl rfl⟩

end Sys2Proof.Safety
end

section
/-! PROOF. The session controller's statements (41_session_controller.md): the two operations back to back, and what
neither they nor the loop steps that run them touch. -/

namespace Sys2Proof.Machine

open Sys2Proof.Safety

/-! ### What the session controller leaves alone -/

/-- Between two states only `trst_n`, `cs_n` and `loe_n` have moved: the RAM, the latches, the bus and the other lines
stand alike (41_session_controller.md R160). -/
def OnlySessionLinesMove (s t : State) : Prop :=
  t.mem = s.mem ∧ t.latches = s.latches ∧
    t.lines = { s.lines with trstN := t.lines.trstN, csN := t.lines.csN, loeN := t.lines.loeN }

theorem OnlySessionLinesMove.refl (s : State) : OnlySessionLinesMove s s := ⟨rfl, rfl, rfl⟩

theorem OnlySessionLinesMove.trans {s t u : State} (h : OnlySessionLinesMove s t) (h' : OnlySessionLinesMove t u) :
    OnlySessionLinesMove s u := by
  obtain ⟨mem, latches, lines⟩ := h
  obtain ⟨mem', latches', lines'⟩ := h'
  refine ⟨mem'.trans mem, latches'.trans latches, ?_⟩
  rw [lines] at lines'
  exact lines'

theorem sPhaseStep_onlySessionLines (p : SPhase) (s : State) : OnlySessionLinesMove s (sPhaseStep p s) := by
  cases p <;> exact ⟨rfl, rfl, rfl⟩

theorem runSPhases_onlySessionLines (ps : List SPhase) (s : State) : OnlySessionLinesMove s (runSPhases ps s) := by
  induction ps generalizing s with
  | nil => exact .refl s
  | cons p ps ih => exact (sPhaseStep_onlySessionLines p s).trans (ih (sPhaseStep p s))

/-- SESSION.BEGIN is one session phase; opening the session after the last one moves no line. -/
theorem exec_sessionBegin_onlySessionLines (p : BitVec 2) (s : State) :
    ∃ t, exec (.sessionBegin p) s = .next t ∧ OnlySessionLinesMove s t := by
  have phase := sPhaseStep_onlySessionLines (SPhase.ofBegin p) s
  rcases pair_cases p with rfl | rfl | rfl | rfl
  · exact ⟨_, rfl, phase⟩
  · exact ⟨_, rfl, phase⟩
  · exact ⟨_, rfl, phase⟩
  · exact ⟨openSession (sPhaseStep .bLoe s), rfl, phase⟩

/-- FIN.END is one session phase; going on to the report after the last one moves no line. -/
theorem exec_finEnd_onlySessionLines (p : BitVec 2) (s : State) :
    ∃ t, exec (.finEnd p) s = .next t ∧ OnlySessionLinesMove s t := by
  have phase := sPhaseStep_onlySessionLines (SPhase.ofEnd p) s
  rcases pair_cases p with rfl | rfl | rfl | rfl
  · exact ⟨_, rfl, phase⟩
  · exact ⟨_, rfl, phase⟩
  · exact ⟨_, rfl, phase⟩
  · exact ⟨{ sPhaseStep .eSettle s with sphase := .sIdle, cp := .report }, rfl, phase⟩

end Sys2Proof.Machine

namespace Sys2Proof.Safety

open Sys2Proof.Machine

/-! ### The Bus Sequencer at rest -/

/-- While the session controller runs, no write is in flight (10_state.md R46). -/
theorem ControlConsistent.wIdle_of_session {s : State} (h : ControlConsistent s)
    (hcp : s.cp = .beginRun ∨ s.cp = .endRun) : s.wphase = .wIdle := by
  unfold ControlConsistent at h
  rcases hcp with hcp | hcp <;> rw [hcp] at h <;> exact h.2

/-- With no write in flight the four strobe lines rest (40_bus_sequencer.md R134). -/
theorem StrobesRight.atRest {s : State} (h : StrobesRight s) (idle : s.wphase = .wIdle) :
    s.lines.leAh = releaseLevel s ∧ s.lines.leAl = releaseLevel s ∧ s.lines.leD = releaseLevel s ∧
      s.lines.weN = 1 := by
  simpa [StrobesRight, idle] using h

/-! ### The statements -/

/-- Settles O31: each of the four rows is a run of session phases, none of which reaches past the session lines; at
the session controller's control points no write is in flight, so the strobes rest. -/
theorem sessionControllerLeavesTheStrobes : Obligations.SessionControllerLeavesTheStrobes := by
  refine ⟨fun s p i row => ?_, fun s consistent hcp => ?_⟩
  · rcases row with rfl | rfl | rfl | rfl
    · exact exec_sessionBegin_onlySessionLines p s
    · exact ⟨_, rfl, runSPhases_onlySessionLines (beginSessionFrom p) s⟩
    · exact exec_finEnd_onlySessionLines p s
    · exact ⟨_, rfl, runSPhases_onlySessionLines (endSessionFrom p) s⟩
  · exact consistent.strobes.atRest (consistent.control.wIdle_of_session hcp)

/-- Settles O30: END_SESSION after BEGIN_SESSION, by the laws that say each in full; the levels it leaves are those the
lines stood at. -/
theorem bracketRestoresTheLines : Obligations.BracketRestoresTheLines := by
  intro s trst cs loe
  refine ⟨runSPhases (endSessionFrom 0) (runSPhases (beginSessionFrom 0) s), rfl, ?_, ?_⟩
  · calc (runSPhases (endSessionFrom 0) (runSPhases (beginSessionFrom 0) s)).lines
      _ = { s.lines with trstN := 1, csN := 1, loeN := 1 } := by rw [runSPhases_end, runSPhases_begin]
      _ = { s.lines with trstN := s.lines.trstN, csN := s.lines.csN, loeN := s.lines.loeN } := by rw [trst, cs, loe]
  · rw [runSPhases_end, runSPhases_begin]
    rfl

end Sys2Proof.Safety
end

section
/-! PROOF. The upload protocol's statements (42_upload_protocol.md): the rows of the three wait points, the session
bracket as a run of the loop, and what a failed session leaves. -/

namespace Sys2Proof.Machine

open Sys2Proof.Safety

/-! ### An event taken with nothing left for the environment to do -/

theorem step_idle {s : State} {e : Event} (env : s.env = []) (hcp : s.cp = .idleWait)
    (pending : pendingEvent s = some e) :
    step s = exec (idleRow e) (takeEvent e (clearPulses s)) := by
  rw [step_core env, fetchCore_idle hcp pending]; rfl

theorem step_str {s : State} {e : Event} (env : s.env = []) (hcp : s.cp = .strWait)
    (pending : pendingEvent s = some e) :
    step s = exec (strRow e) (takeEvent e (clearPulses s)) := by
  rw [step_core env, fetchCore_str hcp pending]; rfl

/-- The only row that leaves Idle is the one of the start marker (42_upload_protocol.md R172). -/
theorem exec_idleRow_leaves {e : Event} {s t : State} (hcp : s.cp = .idleWait) (run : exec (idleRow e) s = .next t)
    (left : t.cp ≠ .idleWait) : e = .byte startMarker := by
  cases e with
  | byte b =>
    by_cases marker : b = startMarker
    · rw [marker]
    · rw [idleRow, if_neg marker] at run
      cases run
      exact absurd hcp left
  | timeout => cases run; exact absurd hcp left
  | closed => cases run; exact absurd hcp left

/-- The header is little-endian: the second byte counts 256 fold (42_upload_protocol.md R178). -/
theorem headerAddress_toNat (hi lo : Byte) : (headerAddress hi lo).toNat = lo.toNat + 256 * hi.toNat := by
  rw [headerAddress, BitVec.toNat_append, ← Nat.shiftLeft_add_eq_or_of_lt lo.isLt, Nat.shiftLeft_eq]
  omega

theorem step_confirm {s : State} (env : s.env = []) (hcp : s.cp = .confirmTx) (ready : s.ports.txReady = true) :
    step s = .next (enterDone (sendTx confirmByte (clearPulses s))) := by
  rw [step_core env, fetchCore_confirm hcp]
  exact if_pos ready

theorem step_report {s : State} (env : s.env = []) (hcp : s.cp = .report) :
    step s = .next (returnToIdle (clearPulses s)) := by
  rw [step_core env, fetchCore_report hcp]; rfl

/-! ### The session bracket as a run of the loop -/

theorem ofBegin_cases : ∀ p : BitVec 2, SPhase.ofBegin p = .bReset ∨ SPhase.ofBegin p = .bSettle ∨
    SPhase.ofBegin p = .bCs ∨ SPhase.ofBegin p = .bLoe := by decide

theorem ofEnd_cases : ∀ p : BitVec 2, SPhase.ofEnd p = .eLoe ∨ SPhase.ofEnd p = .eCs ∨
    SPhase.ofEnd p = .eReset ∨ SPhase.ofEnd p = .eSettle := by decide

theorem phaseBits_ofBegin : ∀ p : BitVec 2, phaseBits (SPhase.ofBegin p) = p := by decide

theorem phaseBits_ofEnd : ∀ p : BitVec 2, phaseBits (SPhase.ofEnd p) = p := by decide

/-- One loop step of CP_BEGIN: the phase that `sphase` names, and after the last one the session's initialisation
(42_upload_protocol.md R181). -/
theorem step_sessionBegin {s : State} (p : BitVec 2) (env : s.env = []) (hcp : s.cp = .beginRun)
    (phase : s.sphase = SPhase.ofBegin p) :
    step s = .next (if p = 3 then openSession (sPhaseStep .bLoe (clearPulses s))
      else sPhaseStep (SPhase.ofBegin p) (clearPulses s)) := by
  rw [step_core env, fetchCore_begin hcp (phase ▸ ofBegin_cases p), phase, phaseBits_ofBegin]
  rcases pair_cases p with rfl | rfl | rfl | rfl <;> rfl

/-- One loop step of CP_END: the phase that `sphase` names, and after the last one the way to the report
(42_upload_protocol.md R191, R192). -/
theorem step_finEnd {s : State} (p : BitVec 2) (env : s.env = []) (hcp : s.cp = .endRun)
    (phase : s.sphase = SPhase.ofEnd p) :
    step s = .next (if p = 3 then { sPhaseStep .eSettle (clearPulses s) with cp := .report }
      else sPhaseStep (SPhase.ofEnd p) (clearPulses s)) := by
  rw [step_core env, fetchCore_end hcp (phase ▸ ofEnd_cases p), phase, phaseBits_ofEnd]
  rcases pair_cases p with rfl | rfl | rfl | rfl <;> rfl

/-- The four loop steps of CP_BEGIN are BEGIN_SESSION and then the session's initialisation (42_upload_protocol.md
R181). -/
theorem after_beginRun {s : State} (env : s.env = []) (hcp : s.cp = .beginRun) (phase : s.sphase = .bReset) :
    after 4 s = .next (openSession (runSPhases (beginSessionFrom 0) (clearPulses s))) := by
  rw [after_succ (step_sessionBegin 0 env hcp phase),
    after_succ (step_sessionBegin 1 (by simpa) (by simpa) (by simp; rfl)),
    after_succ (step_sessionBegin 2 (by simpa) (by simpa) (by simp; rfl)),
    after_succ (step_sessionBegin 3 (by simpa) (by simpa) (by simp; rfl))]
  rfl

/-- The four loop steps of CP_END are END_SESSION, and then the way to the report (42_upload_protocol.md R191, R192). -/
theorem after_endRun {s : State} (env : s.env = []) (hcp : s.cp = .endRun) (phase : s.sphase = .eLoe) :
    after 4 s = .next { runSPhases (endSessionFrom 0) (clearPulses s) with cp := .report } := by
  rw [after_succ (step_finEnd 0 env hcp phase),
    after_succ (step_finEnd 1 (by simpa) (by simpa) (by simp; rfl)),
    after_succ (step_finEnd 2 (by simpa) (by simpa) (by simp; rfl)),
    after_succ (step_finEnd 3 (by simpa) (by simpa) (by simp; rfl))]
  rfl

/-- The clean-up and the report in full: END_SESSION, the record, and the return to Idle (42_upload_protocol.md R191 to
R193). -/
theorem after_endRun_report {s : State} (env : s.env = []) (hcp : s.cp = .endRun) (phase : s.sphase = .eLoe) :
    after 5 s = .next { s with
      lines := { s.lines with loeN := 1, csN := 1, trstN := 1 }
      trace := s.trace ++ endTrain ++ [.result (resultOf s)]
      now := s.now + s.params.tSettle
      pulseOk := false
      sphase := .sIdle
      res := resultOf s
      warnTimeout := false
      resValid := true
      sess := Session.cleared
      err := .none
      cp := .idleWait
      timer := { loadedAt := s.now + s.params.tSettle, expired := false } } := by
  rw [after_add (m := 4) (n := 1) (after_endRun env hcp phase), runSPhases_end,
    after_succ (step_report (by simpa) (by simp))]
  rfl

/-! ### The entries into failure -/

/-- The three steps of the CORE that set an error (60_exceptions.md R241 to R243). -/
inductive FailureCase (u t : State) : Prop where
  | header (hc : u.cp = .hdrWait) (hp : pendingEvent u = some .timeout)
      (ht : t = raiseFailed .truncatedHeader (takeEvent .timeout (clearPulses u)))
  | stream (hc : u.cp = .strWait) (hp : pendingEvent u = some .closed)
      (ht : t = raiseFailed .streamClosed (takeEvent .closed (clearPulses u)))
  | write (hc : u.cp = .write) (hp : u.wphase = .weHigh) (hf : u.ports.busFault = true)
      (ht : t = rejectWrite { wPhaseStep .weHigh (clearPulses u) with wrRet := .busError })

/-- No other result of the CORE's turn sets an error. -/
theorem failure_case {u t : State} (h : CoreResult u t) (noErr : u.err = .none) (failed : t.err ≠ .none) :
    FailureCase u t := by
  cases h
  case hdrTmo hc hp ht => exact .header hc hp ht
  case strClosed hc hp ht => exact .stream hc hp ht
  case wrErr hc hp hf ht => exact .write hc hp hf ht
  all_goals exact absurd (by simp [*]) failed

/-- Only a turn of the CORE enters into failure: the reset clears the error, and no other act reaches it. -/
theorem step_failure_case {s t : State} (h : step s = .next t) (noErr : s.err = .none) (failed : t.err ≠ .none) :
    ∃ u, CoreTurn s u ∧ FailureCase u t := by
  cases step_case h with
  | core u turn ht =>
    obtain ⟨_, _, _, _, hu⟩ := coreTurn_frame turn
    exact ⟨u, turn, failure_case (core_result ht) (by rw [hu]; exact noErr) failed⟩
  | reset rest head ht => exact absurd (by rw [ht]; rfl) failed
  | outside rest rx tx host ht => exact absurd (by rw [ht]; exact noErr) failed

/-- The end of a strobe changes the cell that the latches address and no other (20_memory.md R69, R70). -/
theorem ramAt_weHigh {s : State} {a : Addr} (other : a ≠ latchAddress s.latches) :
    ramAt (wPhaseStep .weHigh s) a = ramAt s a := by
  have differ : a.toNat ≠ (latchAddress s.latches).toNat := fun same => other (BitVec.eq_of_toNat_eq same)
  change Memory.read (memAfter .weN 1 s) a.toNat = Memory.read s.mem a.toNat
  simp only [memAfter]
  split
  · exact read_write_other s.mem _ differ
  · rfl

/-! ### Steps without the block's reset -/

/-- Without the block's reset a step is the CORE's, or it reaches only the channels and the host's run. -/
theorem step_noReset {s t : State} (h : step s = .next t) (noReset : s.env.head? ≠ some .reset) :
    (∃ u, CoreTurn s u ∧ CoreResult u t) ∨
      ∃ rx tx host env, t = { s with rx := rx, tx := tx, host := host, env := env } := by
  cases step_case h with
  | core u turn ht => exact .inl ⟨u, turn, core_result ht⟩
  | reset rest head ht => exact absurd (by rw [head]; rfl) noReset
  | outside rest rx tx host ht => exact .inr ⟨rx, tx, host, rest, ht⟩

/-- The CORE changes the RAM in a write only. -/
theorem coreResult_mem {u t : State} (h : CoreResult u t) (noWrite : u.cp ≠ .write) : t.mem = u.mem := by
  cases h
  case wr hc _ _ _ => exact absurd hc noWrite
  case wrOk hc _ _ _ => exact absurd hc noWrite
  case wrErr hc _ _ _ => exact absurd hc noWrite
  all_goals subst t; simp

/-- The CORE changes the count in a write, at the session's start and at the report only. -/
theorem coreResult_bytesWritten {u t : State} (h : CoreResult u t) (noWrite : u.cp ≠ .write)
    (noBegin : u.cp ≠ .beginRun) (noReport : u.cp = .report → t.cp = .report) :
    t.sess.bytesWritten = u.sess.bytesWritten := by
  cases h
  case wrOk hc _ _ _ => exact absurd hc noWrite
  case sessionOpen hc _ _ => exact absurd hc noBegin
  case report hc ht => exact absurd (noReport hc) (by simp [ht])
  all_goals subst t; simp

theorem step_mem {s t : State} (h : step s = .next t) (noReset : s.env.head? ≠ some .reset)
    (noWrite : s.cp ≠ .write) : t.mem = s.mem := by
  rcases step_noReset h noReset with ⟨u, turn, ht⟩ | ⟨_, _, _, _, rfl⟩
  · obtain ⟨_, _, _, _, rfl⟩ := coreTurn_frame turn
    exact (coreResult_mem ht noWrite :)
  · rfl

theorem step_bytesWritten {s t : State} (h : step s = .next t) (noReset : s.env.head? ≠ some .reset)
    (noWrite : s.cp ≠ .write) (noBegin : s.cp ≠ .beginRun) (noReport : s.cp = .report → t.cp = .report) :
    t.sess.bytesWritten = s.sess.bytesWritten := by
  rcases step_noReset h noReset with ⟨u, turn, ht⟩ | ⟨_, _, _, _, rfl⟩
  · obtain ⟨_, _, _, _, rfl⟩ := coreTurn_frame turn
    exact (coreResult_bytesWritten ht noWrite noBegin noReport :)
  · rfl

/-- The CORE leaves CP_END after phase 7 only, to the report (42_upload_protocol.md R192). -/
theorem coreResult_leaves_endRun {u t : State} (h : CoreResult u t) (hcp : u.cp = .endRun) (left : t.cp ≠ .endRun) :
    t.cp = .report ∧ u.sphase = .eSettle := by
  cases h
  case finEnd hc _ ht => exact absurd (by simp [ht, hc]) left
  case finEndLast phase ht => exact ⟨by rw [ht], phase⟩
  all_goals simp_all -- the results of the other control points

end Sys2Proof.Machine

namespace Sys2Proof.Safety

open Sys2Proof.Machine

/-! ### A live session -/

/-- No error is set outside the clean-up and the report (10_state.md R23). -/
theorem ErrorConfined.noErr {s : State} (h : ErrorConfined s) (noEnd : s.cp ≠ .endRun) (noReport : s.cp ≠ .report) :
    s.err = .none := by
  by_contra failed
  rcases h failed with hcp | hcp
  · exact noEnd hcp
  · exact noReport hcp

/-- In Streaming the UploadSession is live (10_state.md R46). -/
theorem SessionFlagRight.streaming {s : State} (h : SessionFlagRight s) (hcp : s.cp = .strWait) :
    s.sess.valid = true := by
  rw [h, hcp]; rfl

/-! ### The statements -/

/-- Settles O8: the row of the start marker is the only one of Idle that leaves it. -/
theorem startMarkerAloneLeavesIdle : Obligations.StartMarkerAloneLeavesIdle := by
  refine ⟨fun _ => rfl, fun _ _ => rfl, fun s env hcp => ⟨fun ⟨t, run, left⟩ => ?_, fun marker => ?_⟩⟩
  · cases pending : pendingEvent s with
    | none =>
      rw [step_core env, fetchCore_none (by rw [hcp]; rfl) pending] at run
      cases run
      exact absurd hcp left
    | some e =>
      rw [step_idle env hcp pending] at run
      rw [exec_idleRow_leaves (by simpa) run left] at pending
      exact pendingEvent_byte.mp pending
  · exact ⟨_, step_idle env hcp (pendingEvent_byte.mpr marker), by simp⟩

/-- Settles O11: `hdr_cnt` tells the two rows apart, and the two bytes are the halves of the address. -/
theorem headerBytesAreTaken : Obligations.HeaderBytesAreTaken := by
  refine ⟨fun s b _ => ⟨fun count => ⟨?_, rfl⟩, fun count => ⟨?_, rfl⟩⟩, fun s first second _ _ => ?_⟩
  · rw [count]; exact decode_hdr_byte 0 b
  · rw [count]; exact decode_hdr_byte 1 b
  · exact ⟨_, rfl, rfl, headerAddress_toNat second first⟩

/-- Settles O15: STR.END, CONFIRM, the clean-up and the report, with no error set and the session live. -/
theorem endMarkerGoesToConfirm : Obligations.EndMarkerGoesToConfirm := by
  refine ⟨fun _ => rfl, fun _ _ => rfl, fun s rest consistent quiet hcp hrx => ?_⟩
  have noErr : s.err = .none := consistent.error.noErr (by simp [hcp]) (by simp [hcp])
  have live : s.sess.valid = true := consistent.flag.streaming hcp
  have pending : pendingEvent s = some (.byte endMarker) := pendingEvent_byte.mpr (by rw [hrx]; rfl)
  have taken : step s = .next { takeEvent (.byte endMarker) (clearPulses s) with cp := .confirmTx } :=
    step_str quiet.coreTurn hcp pending
  obtain ⟨env, ready, -, -⟩ := quiet
  have confirmed := step_confirm (s := { takeEvent (.byte endMarker) (clearPulses s) with cp := .confirmTx })
    env rfl ready
  refine ⟨_, (after_succ taken).trans ((after_succ confirmed).trans (after_endRun_report env rfl rfl)), rfl, ?_⟩
  simp [resultOf, sessionFailed, noErr, live, hrx, takeEvent, confirmByte]

/-- Settles O16: STR.CLOSED, the clean-up and the report, with the session live. -/
theorem streamClosedFailsTheSession : Obligations.StreamClosedFailsTheSession := by
  refine ⟨fun _ => rfl, fun _ _ => rfl, fun s consistent env hcp pending => ?_⟩
  have live : s.sess.valid = true := consistent.flag.streaming hcp
  have closed : step s = .next (raiseFailed .streamClosed (takeEvent .closed (clearPulses s))) :=
    step_str env hcp pending
  refine ⟨_, (after_succ closed).trans (after_endRun_report env rfl rfl), rfl, ?_⟩
  simp [resultOf, sessionFailed, live]

/-- Settles O17: any byte but the end marker falls to the last row of Streaming. -/
theorem dataByteStartsAWrite : Obligations.DataByteStartsAWrite := by
  refine fun s b data => ⟨fun h => ?_, fun _ => rfl⟩
  exact (decode_str_byte h b).trans (congrArg Except.ok (if_neg data))

/-- Settles O22: the report by its record, the entry by its three cases, and the steps in between by what changes
the RAM and the count at all. -/
theorem failureReportsNoBytes : Obligations.FailureReportsNoBytes := by
  refine ⟨fun s _ failed => ?_, fun s t h noErr failed => ?_,
    fun s t h noReset => ⟨fun hcp => ?_, fun hcp => ?_⟩⟩
  · exact ⟨returnToIdle s, rfl, by simp [resultOf, sessionFailed, failed]⟩
  · obtain ⟨u, turn, entry⟩ := step_failure_case h noErr failed
    obtain ⟨_, _, _, _, rfl⟩ := coreTurn_frame turn
    cases entry with
    | header _ _ ht => subst ht; exact ⟨rfl, fun _ => rfl, fun _ _ => rfl⟩
    | stream _ _ ht => subst ht; exact ⟨rfl, fun _ => rfl, fun _ _ => rfl⟩
    | write hc _ _ ht => subst ht; exact ⟨rfl, fun noWrite => absurd hc noWrite, fun a other => ramAt_weHigh other⟩
  · obtain ⟨noWrite, noBegin, noReport⟩ : s.cp ≠ .write ∧ s.cp ≠ .beginRun ∧ s.cp ≠ .report := by
      rcases hcp with hcp | hcp <;> simp [hcp]
    exact ⟨step_bytesWritten h noReset noWrite noBegin (fun hcp => absurd hcp noReport), step_mem h noReset noWrite⟩
  · exact ⟨step_mem h noReset (by simp [hcp]),
      fun stays => step_bytesWritten h noReset (by simp [hcp]) (by simp [hcp]) (fun _ => stays)⟩

/-- Settles O25: the four steps by the law of the loop at CP_BEGIN, and BEGIN_SESSION in full. -/
theorem sessionBeginsInFourSteps : Obligations.SessionBeginsInFourSteps := by
  intro s env hcp phase
  refine ⟨_, after_beginRun env hcp phase, ?_⟩
  rw [runSPhases_begin]
  rfl

/-- Settles O27: the last phase as it stands, and the CORE's ways out of CP_END; no other act but the reset moves
`cp`. -/
theorem endSessionLeadsToTheReport : Obligations.EndSessionLeadsToTheReport := by
  refine ⟨fun s _ => ⟨_, rfl, rfl, rfl, rfl⟩, fun s t hcp noReset h left => ?_⟩
  rcases step_noReset h noReset with ⟨u, turn, ht⟩ | ⟨_, _, _, _, rfl⟩
  · obtain ⟨_, _, _, _, rfl⟩ := coreTurn_frame turn
    exact (coreResult_leaves_endRun ht hcp left :)
  · exact absurd hcp left

end Sys2Proof.Safety
end

section
/-! PROOF. The entry into failure (60_exceptions.md R252): `raiseFailed` is the one way in, and the clean-up keeps what
it wrote. -/

namespace Sys2Proof.Machine

open Sys2Proof.Safety

/-- Only an error shows as `Failed` (10_state.md R22). -/
theorem err_of_fsm_failed {s : State} (failed : fsm s = .failed) : s.err ≠ .none := by
  intro noErr
  unfold fsm at failed
  cases hcp : s.cp <;> simp [hcp, noErr] at failed

/-- Each cause enters through `raiseFailed`, with the session and the transmit channel as the turn found them. -/
theorem FailureCase.raised {u t : State} (h : FailureCase u t) :
    ∃ k v, k ≠ .none ∧ t = raiseFailed k v ∧ v.sess = u.sess ∧ v.tx = u.tx := by
  cases h with
  | header _ _ ht => exact ⟨.truncatedHeader, _, by decide, ht, rfl, rfl⟩
  | stream _ _ ht => exact ⟨.streamClosed, _, by decide, ht, rfl, rfl⟩
  | write _ _ _ ht => exact ⟨.busError, _, by decide, ht, rfl, rfl⟩

/-- No phase of the clean-up changes the session registers, the error or the time of its entry. -/
theorem coreResult_cleanup_keeps {u t : State} (h : CoreResult u t) (hcp : u.cp = .endRun) :
    t.sess = u.sess ∧ t.err = u.err ∧ t.tEnd = u.tEnd := by
  cases h
  case finEnd ht => subst ht; simp
  case finEndLast ht => subst ht; simp
  all_goals simp_all -- the results of the other control points

end Sys2Proof.Machine

namespace Sys2Proof.Safety

open Sys2Proof.Machine

/-- Settles O23: the entry as it stands, its three cases, and the clean-up by what its phases keep. -/
theorem failureEntry : Obligations.FailureEntry := by
  refine ⟨fun k s error => ⟨rfl, if_neg error⟩, fun s t h noErr failed => ?_, fun s t h hcp noReset => ?_⟩
  · obtain ⟨u, turn, entry⟩ := step_failure_case h noErr (err_of_fsm_failed failed)
    obtain ⟨_, _, _, _, rfl⟩ := coreTurn_frame turn
    exact entry.raised
  · rcases step_noReset h noReset with ⟨u, turn, ht⟩ | ⟨_, _, _, _, rfl⟩
    · obtain ⟨_, _, _, _, rfl⟩ := coreTurn_frame turn
      exact (coreResult_cleanup_keeps ht hcp :)
    · exact ⟨rfl, rfl, rfl⟩

end Sys2Proof.Safety
end

section
/-! PROOF. The encoding's statements (30_encoding.md): the round trip, what the decoder accepts, and the decoder
against the transcribed table. -/

namespace Sys2Proof

/-! ### A control word, group by group -/

@[simp] theorem decode_loop_pack (c : ControlPoint) (phase : BitVec 4) (f : BitVec 1) :
    decode (.control .loop (packControl c.code phase f)) = decodeLoop c phase := by
  simp [decode, decodeControl]

@[simp] theorem decode_call_pack (c : ControlPoint) (phase : BitVec 4) (f : BitVec 1) :
    decode (.control .call (packControl c.code phase f)) = decodeCall c phase := by
  simp [decode, decodeControl]

@[simp] theorem decode_part_pack (c : ControlPoint) (phase : BitVec 4) (f : BitVec 1) :
    decode (.control .part (packControl c.code phase f)) = decodePart c phase := by
  simp [decode, decodeControl]

@[simp] theorem decode_ret_pack (c : ControlPoint) (phase : BitVec 4) (f : BitVec 1) :
    decode (.control .ret (packControl c.code phase f)) = decodeRet c phase f := by
  simp [decode, decodeControl]

/-- The strobe has phases 12 to 14: phase 15 is none of its own (40_bus_sequencer.md R125, R127). -/
theorem decodePart_strobe : ∀ {p : BitVec 2}, p ≠ 3 → decodePart .write ((3 : BitVec 2) ++ p) = .ok (.wePulse p) := by
  decide

/-- A whole host stream gives its two operands back (43_host_uploader.md R221). -/
theorem decodeHost_stream (a : Addr) (image : List Byte) :
    decodeHost (startMarker :: a.extractLsb' 0 8 :: a.extractLsb' 8 8 :: (image ++ [endMarker])) =
      .ok (.hUpload a image) := by
  simp [decodeHost, headerAddress_halves]

/-- Settles O1: row by row, the fields of the word that the encoder packs are those the decoder looks at. -/
theorem decodeEncodeAgree : Obligations.DecodeEncodeAgree := by
  intro i wf
  cases i
  case idleSkip b =>
    have other : b ≠ startMarker := bne_iff_ne.mp wf
    exact (decode_idle_byte 0 b).trans (congrArg Except.ok (if_neg other))
  case strData b =>
    have other : b ≠ endMarker := bne_iff_ne.mp wf
    exact (decode_str_byte 0 b).trans (congrArg Except.ok (if_neg other))
  case hdrLo b => exact decode_hdr_byte 0 b
  case hdrHi b => exact decode_hdr_byte 1 b
  case sessionBegin p => simp [encode, beginWord, decodeLoop]
  case beginSession p => simp [encode, beginWord, decodeCall]
  case finEnd p => simp [encode, endWord, decodeLoop]
  case endSession p => simp [encode, endWord, decodeCall]
  case wrStep p =>
    exact (decode_loop_pack .write p 0).trans (if_neg (bne_iff_ne.mp wf))
  case writeByte p =>
    exact (decode_call_pack .write p 0).trans (if_neg (bne_iff_ne.mp wf))
  case latchAh p => simp [encode, writeWord, decodePart]
  case latchAl p => simp [encode, writeWord, decodePart]
  case latchD p => simp [encode, writeWord, decodePart]
  case wePulse p =>
    exact (decode_part_pack .write (3 ++ p) 0).trans (decodePart_strobe (bne_iff_ne.mp wf))
  case hUpload a image => exact decodeHost_stream a image
  all_goals rfl -- the rows without operands: one word each

/-! ### What the decoder accepts -/

theorem decodeIdle_wellFormed {ev : BitVec 10} {i : Instr} (h : decodeIdle ev = .ok i) : i.wellFormed = true := by
  unfold decodeIdle at h
  split_ifs at h with byte marker <;> cases h
  · rfl
  · exact bne_iff_ne.mpr marker
  · rfl
  · rfl

theorem decodeHdr_wellFormed {hdrCnt : BitVec 1} {ev : BitVec 10} {i : Instr} (h : decodeHdr hdrCnt ev = .ok i) :
    i.wellFormed = true := by
  unfold decodeHdr at h
  split_ifs at h <;> cases h <;> rfl

theorem decodeStr_wellFormed {ev : BitVec 10} {i : Instr} (h : decodeStr ev = .ok i) : i.wellFormed = true := by
  unfold decodeStr at h
  split_ifs at h with timeout byte marker <;> cases h
  · rfl
  · rfl
  · exact bne_iff_ne.mpr marker
  · rfl

theorem decodeEvent_wellFormed {cp : ControlPoint} {hdrCnt : BitVec 1} {ev : BitVec 10} {i : Instr}
    (h : decodeEvent cp hdrCnt ev = .ok i) : i.wellFormed = true := by
  cases cp
  case idleWait => exact decodeIdle_wellFormed h
  case hdrWait => exact decodeHdr_wellFormed h
  case strWait => exact decodeStr_wellFormed h
  all_goals cases h

theorem decodeLoop_wellFormed {cp : ControlPoint} {phase : BitVec 4} {i : Instr} (h : decodeLoop cp phase = .ok i) :
    i.wellFormed = true := by
  unfold decodeLoop at h
  split at h
  case h_3 =>
    split_ifs at h with idle
    cases h
    exact bne_iff_ne.mpr idle
  all_goals (try split_ifs at h); cases h
  all_goals rfl

theorem decodeCall_wellFormed {cp : ControlPoint} {phase : BitVec 4} {i : Instr} (h : decodeCall cp phase = .ok i) :
    i.wellFormed = true := by
  unfold decodeCall at h
  split at h
  case h_2 =>
    split_ifs at h with idle
    cases h
    exact bne_iff_ne.mpr idle
  all_goals (try split_ifs at h); cases h
  all_goals rfl

/-- A phase past the three latch operations that is not `W_IDLE` is one of the strobe's three (40_bus_sequencer.md
R127). -/
theorem strobe_phase : ∀ phase : BitVec 4, phase.extractLsb' 2 2 ≠ 0 → phase.extractLsb' 2 2 ≠ 1 →
    phase.extractLsb' 2 2 ≠ 2 → phase ≠ 15 → phase.extractLsb' 0 2 ≠ 3 := by decide

theorem decodePart_wellFormed {cp : ControlPoint} {phase : BitVec 4} {i : Instr} (h : decodePart cp phase = .ok i) :
    i.wellFormed = true := by
  unfold decodePart at h
  split at h
  case h_1 =>
    split_ifs at h with ah al d idle <;> cases h
    · rfl
    · rfl
    · rfl
    · exact bne_iff_ne.mpr (strobe_phase phase ah al d idle)
  all_goals cases h

theorem decodeRet_wellFormed {cp : ControlPoint} {phase : BitVec 4} {f : BitVec 1} {i : Instr}
    (h : decodeRet cp phase f = .ok i) : i.wellFormed = true := by
  unfold decodeRet at h
  split at h
  case h_1 => split_ifs at h <;> cases h <;> rfl
  all_goals cases h

theorem decodeControl_wellFormed {g : RowGroup} {cw : BitVec 9} {i : Instr} (h : decodeControl g cw = .ok i) :
    i.wellFormed = true := by
  unfold decodeControl at h
  split at h
  · cases h
  · cases g
    · exact decodeLoop_wellFormed h
    · exact decodeCall_wellFormed h
    · exact decodePart_wellFormed h
    · exact decodeRet_wellFormed h

theorem decodeHost_wellFormed {stream : List Byte} {i : Instr} (h : decodeHost stream = .ok i) :
    i.wellFormed = true := by
  unfold decodeHost at h
  split at h
  · split_ifs at h
    cases h
    rfl
  · cases h

/-- Settles O2: decoder by decoder; each tests for the exclusion before it answers the row that has one. -/
theorem decodedIsWellFormed : Obligations.DecodedIsWellFormed := by
  intro w i h
  cases w with
  | event cp hdrCnt ev => exact decodeEvent_wellFormed h
  | control g cw => exact decodeControl_wellFormed h
  | host stream => exact decodeHost_wellFormed h

/-- Settles O5: each word by running the decoder on it. -/
theorem sampleWordsDecode : Obligations.SampleWordsDecode := by
  refine ⟨?_, ?_, ?_, ?_, ?_, ?_, ?_, ?_, ?_⟩ <;> rfl

/-! ### Masks over packed fields -/

/-- A mask over two fields is a mask over each. -/
theorem append_and_eq {n m : Nat} (x x' mask : BitVec n) (y y' mask' : BitVec m) :
    (x ++ y) &&& (mask ++ mask') = x' ++ y' ↔ x &&& mask = x' ∧ y &&& mask' = y' := by
  rw [BitVec.and_append]
  refine ⟨fun h => ⟨?_, ?_⟩, fun ⟨hx, hy⟩ => by rw [hx, hy]⟩
  · simpa only [append_high] using congrArg (BitVec.extractLsb' m n) h
  · simpa only [append_low] using congrArg (BitVec.extractLsb' 0 m) h

theorem eventWord_fields (ev : BitVec 10) : eventKind ev ++ eventData ev = ev :=
  BitVec.extractLsb'_append_extractLsb'

theorem controlWord_fields (cw : BitVec 9) : packControl (controlCp cw) (controlPhase cw) (controlFault cw) = cw := by
  have high : controlCp cw ++ controlPhase cw = cw.extractLsb' 1 8 :=
    BitVec.extractLsb'_append_extractLsb'_eq_extractLsb' rfl
  rw [packControl, high]
  exact BitVec.extractLsb'_append_extractLsb'

/-- The mask `0x300` of an event row looks at the kind alone. -/
theorem and_kindMask (ev : BitVec 10) (k : BitVec 2) : ev &&& 0x300 = k ++ (0 : Byte) ↔ eventKind ev = k := by
  have fields := append_and_eq (eventKind ev) k (BitVec.allOnes 2) (eventData ev) 0 0
  rw [eventWord_fields, BitVec.and_allOnes] at fields
  exact fields.trans (and_iff_left (BitVec.and_zero ..))

/-- The mask `0x3FF` of an event row looks at the whole word. -/
theorem and_wholeMask (ev : BitVec 10) (k : BitVec 2) (b : Byte) :
    ev &&& 0x3FF = k ++ b ↔ eventKind ev = k ∧ eventData ev = b := by
  have fields := append_and_eq (eventKind ev) k (BitVec.allOnes 2) (eventData ev) b (BitVec.allOnes 8)
  rw [eventWord_fields, BitVec.and_allOnes, BitVec.and_allOnes] at fields
  exact fields

/-! ### The table -/

/-- One instruction for each row of the table, in its order. -/
def tableRows : List Instr :=
  [.idleStart, .idleSkip 0, .idleTmo, .idleClosed, .hdrLo 0, .hdrHi 0, .hdrTmo, .hdrClosed, .strTmo, .strEnd,
   .strClosed, .strData 0, .ack, .sessionBegin 0, .beginSession 0, .wrStep 0, .writeByte 0, .latchAh 0, .latchAl 0,
   .latchD 0, .wePulse 0, .wrOk, .wrErr, .confirm, .finEnd 0, .endSession 0, .finReport, .hUpload 0 []]

/-- The table holds the rows of the instructions and no other key. -/
theorem mem_table {k : RowKey} : k ∈ table ↔ ∃ i : Instr, i.row = k := by
  refine ⟨fun h => ?_, ?_⟩
  · obtain ⟨i, -, row⟩ := List.mem_map.mp (show k ∈ tableRows.map Instr.row from h)
    exact ⟨i, row⟩
  · rintro ⟨i, rfl⟩
    cases i <;> simp [table, Instr.row]

/-- When the row of an instruction fits an event word: at its control point, by the kind of the event, and by the data
or `hdr_cnt` where the row looks at them (30_encoding.md R98). -/
inductive EventRow (hdrCnt : BitVec 1) (ev : BitVec 10) : ControlPoint → Instr → Prop where
  | idleStart (kind : eventKind ev = 0) (data : eventData ev = startMarker) : EventRow hdrCnt ev .idleWait .idleStart
  | idleSkip (b : Byte) (kind : eventKind ev = 0) : EventRow hdrCnt ev .idleWait (.idleSkip b)
  | idleTmo (kind : eventKind ev = 1) : EventRow hdrCnt ev .idleWait .idleTmo
  | idleClosed (kind : eventKind ev = 2) : EventRow hdrCnt ev .idleWait .idleClosed
  | hdrLo (b : Byte) (kind : eventKind ev = 0) (count : hdrCnt = 0) : EventRow hdrCnt ev .hdrWait (.hdrLo b)
  | hdrHi (b : Byte) (kind : eventKind ev = 0) (count : hdrCnt = 1) : EventRow hdrCnt ev .hdrWait (.hdrHi b)
  | hdrTmo (kind : eventKind ev = 1) : EventRow hdrCnt ev .hdrWait .hdrTmo
  | hdrClosed (kind : eventKind ev = 2) : EventRow hdrCnt ev .hdrWait .hdrClosed
  | strTmo (kind : eventKind ev = 1) : EventRow hdrCnt ev .strWait .strTmo
  | strEnd (kind : eventKind ev = 0) (data : eventData ev = endMarker) : EventRow hdrCnt ev .strWait .strEnd
  | strClosed (kind : eventKind ev = 2) : EventRow hdrCnt ev .strWait .strClosed
  | strData (b : Byte) (kind : eventKind ev = 0) : EventRow hdrCnt ev .strWait (.strData b)

theorem fits_event {cp cp' : ControlPoint} {h : Option (BitVec 1)} {h' : BitVec 1} {mask value ev : BitVec 10}
    {n : Nat} : (RowKey.event cp h mask value n).fits (.event cp' h' ev) = true ↔
      cp = cp' ∧ (h = none ∨ h = some h') ∧ ev &&& mask = value := by
  simp [RowKey.fits, and_assoc]

theorem row_fits_event {i : Instr} {cp : ControlPoint} {h : BitVec 1} {ev : BitVec 10} :
    i.row.fits (.event cp h ev) = true ↔ EventRow h ev cp i := by
  have byte : ev &&& 0x300 = 0x000 ↔ eventKind ev = 0 := and_kindMask ev 0
  have timeout : ev &&& 0x300 = 0x100 ↔ eventKind ev = 1 := and_kindMask ev 1
  have closed : ev &&& 0x300 = 0x200 ↔ eventKind ev = 2 := and_kindMask ev 2
  have start : ev &&& 0x3FF = 0x055 ↔ eventKind ev = 0 ∧ eventData ev = startMarker := and_wholeMask ev 0 0x55
  have finish : ev &&& 0x3FF = 0x045 ↔ eventKind ev = 0 ∧ eventData ev = endMarker := and_wholeMask ev 0 0x45
  refine ⟨fun fits => ?_, fun row => ?_⟩
  · cases i
    case idleStart => obtain ⟨rfl, -, mask⟩ := fits_event.mp fits; exact .idleStart (start.mp mask).1 (start.mp mask).2
    case idleSkip b => obtain ⟨rfl, -, mask⟩ := fits_event.mp fits; exact .idleSkip b (byte.mp mask)
    case idleTmo => obtain ⟨rfl, -, mask⟩ := fits_event.mp fits; exact .idleTmo (timeout.mp mask)
    case idleClosed => obtain ⟨rfl, -, mask⟩ := fits_event.mp fits; exact .idleClosed (closed.mp mask)
    case hdrLo b =>
      obtain ⟨rfl, count, mask⟩ := fits_event.mp fits
      exact .hdrLo b (byte.mp mask) (Option.some.inj (count.resolve_left nofun)).symm
    case hdrHi b =>
      obtain ⟨rfl, count, mask⟩ := fits_event.mp fits
      exact .hdrHi b (byte.mp mask) (Option.some.inj (count.resolve_left nofun)).symm
    case hdrTmo => obtain ⟨rfl, -, mask⟩ := fits_event.mp fits; exact .hdrTmo (timeout.mp mask)
    case hdrClosed => obtain ⟨rfl, -, mask⟩ := fits_event.mp fits; exact .hdrClosed (closed.mp mask)
    case strTmo => obtain ⟨rfl, -, mask⟩ := fits_event.mp fits; exact .strTmo (timeout.mp mask)
    case strEnd => obtain ⟨rfl, -, mask⟩ := fits_event.mp fits; exact .strEnd (finish.mp mask).1 (finish.mp mask).2
    case strClosed => obtain ⟨rfl, -, mask⟩ := fits_event.mp fits; exact .strClosed (closed.mp mask)
    case strData b => obtain ⟨rfl, -, mask⟩ := fits_event.mp fits; exact .strData b (byte.mp mask)
    all_goals cases fits
  · cases row <;> simp_all [Instr.row, fits_event]

/-- The decoder answers a row that fits the word (30_encoding.md R98). -/
theorem eventRow_of_decode {cp : ControlPoint} {h : BitVec 1} {ev : BitVec 10} {i : Instr}
    (dec : decode (.event cp h ev) = .ok i) : EventRow h ev cp i := by
  cases cp
  case idleWait =>
    simp only [decode, decodeEvent, decodeIdle] at dec
    split_ifs at dec with byte marker timeout closed <;> cases dec
    · exact .idleStart byte marker
    · exact .idleSkip _ byte
    · exact .idleTmo timeout
    · exact .idleClosed closed
  case hdrWait =>
    simp only [decode, decodeEvent, decodeHdr] at dec
    split_ifs at dec with byte count timeout closed <;> cases dec
    · exact .hdrLo _ byte count
    · exact .hdrHi _ byte ((Machine.level_zero_or_one h).resolve_left count)
    · exact .hdrTmo timeout
    · exact .hdrClosed closed
  case strWait =>
    simp only [decode, decodeEvent, decodeStr] at dec
    split_ifs at dec with timeout byte marker closed <;> cases dec
    · exact .strTmo timeout
    · exact .strEnd byte marker
    · exact .strData _ byte
    · exact .strClosed closed
  all_goals cases dec

/-- Where two rows fit, the one that the decoder answers is the one of lower priority number: of the rows of one wait
point only those of a marker and of any byte overlap. -/
theorem eventRow_first {cp : ControlPoint} {h : BitVec 1} {ev : BitVec 10} {i i' : Instr}
    (dec : decode (.event cp h ev) = .ok i) (fits : EventRow h ev cp i') :
    i'.row = i.row ∨ i.row.priority < i'.row.priority := by
  have answered := eventRow_of_decode dec
  cases answered <;> cases fits <;> simp_all [Instr.row, RowKey.priority, decode, decodeEvent, decodeIdle, decodeStr]

theorem decode_event_isOk {cp : ControlPoint} {h : BitVec 1} {ev : BitVec 10} :
    (∃ i, decode (.event cp h ev) = .ok i) ↔ cp.isWait = true ∧ eventKind ev ≠ 3 := by
  refine ⟨fun ⟨i, dec⟩ => ?_, fun ⟨wait, known⟩ => ?_⟩
  · cases eventRow_of_decode dec <;> simp_all [ControlPoint.isWait]
  · have kind : eventKind ev = 0 ∨ eventKind ev = 1 ∨ eventKind ev = 2 := by
      have := Safety.pair_cases (eventKind ev)
      tauto
    cases cp
    case idleWait => simp only [decode, decodeEvent, decodeIdle]; split_ifs <;> simp_all
    case hdrWait => simp only [decode, decodeEvent, decodeHdr]; split_ifs <;> simp_all
    case strWait => simp only [decode, decodeEvent, decodeStr]; split_ifs <;> simp_all
    all_goals cases wait

/-- Settles O3: what the decoder answers fits the word, and the rows that fit with it follow it. -/
theorem eventDecodingFollowsTheTable : Obligations.EventDecodingFollowsTheTable := by
  refine fun cp h ev => ⟨decode_event_isOk, fun i dec => ⟨mem_table.mpr ⟨i, rfl⟩,
    row_fits_event.mpr (eventRow_of_decode dec), fun k mem fits => ?_⟩⟩
  obtain ⟨i', rfl⟩ := mem_table.mp mem
  exact eventRow_first dec (row_fits_event.mp fits)

/-! ### Control words -/

/-- A mask over a control word is a mask over each of its fields. -/
theorem and_fields (cw : BitVec 9) (c m p n : BitVec 4) (f l : BitVec 1) :
    cw &&& packControl m n l = packControl c p f ↔
      controlCp cw &&& m = c ∧ controlPhase cw &&& n = p ∧ controlFault cw &&& l = f := by
  have outer := append_and_eq (controlCp cw ++ controlPhase cw) (c ++ p) (m ++ n) (controlFault cw) f l
  have inner := append_and_eq (controlCp cw) c m (controlPhase cw) p n
  have fields := outer.trans ((and_congr_left' inner).trans and_assoc)
  rwa [show controlCp cw ++ controlPhase cw ++ controlFault cw = cw from controlWord_fields cw] at fields

theorem and_highMask : ∀ phase : BitVec 4, ∀ hi : BitVec 2,
    phase &&& 12 = hi ++ (0 : BitVec 2) ↔ phase.extractLsb' 2 2 = hi := by decide

theorem and_lowMask : ∀ phase : BitVec 4, ∀ lo : BitVec 2,
    phase &&& 3 = (0 : BitVec 2) ++ lo ↔ phase.extractLsb' 0 2 = lo := by decide

theorem fits_control {g g' : RowGroup} {mask value cw : BitVec 9} :
    (RowKey.control g mask value none).fits (.control g' cw) = true ↔ g = g' ∧ cw &&& mask = value := by
  simp [RowKey.fits]

theorem fits_control_excluding {g g' : RowGroup} {mask value mask' value' cw : BitVec 9} :
    (RowKey.control g mask value (some (mask', value'))).fits (.control g' cw) = true ↔
      (g = g' ∧ cw &&& mask = value) ∧ cw &&& mask' ≠ value' := by
  simp [RowKey.fits]

/-- A row that looks at the control point alone. -/
theorem and_cpMask {cw : BitVec 9} {c : BitVec 4} : cw &&& 0b111100000 = packControl c 0 0 ↔ controlCp cw = c :=
  (and_fields cw c (BitVec.allOnes 4) 0 0 0 0).trans (by rw [BitVec.and_allOnes]; simp)

/-- A row that looks at the control point and at the high half of the phase. -/
theorem and_partMask {cw : BitVec 9} {c : BitVec 4} {hi : BitVec 2} :
    cw &&& 0b111111000 = packControl c (hi ++ (0 : BitVec 2)) 0 ↔
      controlCp cw = c ∧ (controlPhase cw).extractLsb' 2 2 = hi := by
  rw [← and_highMask]
  exact (and_fields cw c (BitVec.allOnes 4) (hi ++ (0 : BitVec 2)) 12 0 0).trans (by rw [BitVec.and_allOnes]; simp)

/-- A row that looks at the whole word. -/
theorem and_controlMask {cw : BitVec 9} {c p : BitVec 4} {f : BitVec 1} :
    cw &&& 0b111111111 = packControl c p f ↔ controlCp cw = c ∧ controlPhase cw = p ∧ controlFault cw = f :=
  (and_fields cw c (BitVec.allOnes 4) p (BitVec.allOnes 4) f (BitVec.allOnes 1)).trans
    (by rw [BitVec.and_allOnes, BitVec.and_allOnes, BitVec.and_allOnes])

/-- The exclusion of phase 15. -/
theorem and_phaseMask {cw : BitVec 9} {p : BitVec 4} : cw &&& 0b000011110 = packControl 0 p 0 ↔ controlPhase cw = p :=
  (and_fields cw 0 0 p (BitVec.allOnes 4) 0 0).trans (by rw [BitVec.and_allOnes]; simp)

/-- The exclusion of the strobe's fourth phase. -/
theorem and_lowPhaseMask {cw : BitVec 9} {lo : BitVec 2} :
    cw &&& 0b000000110 = packControl 0 ((0 : BitVec 2) ++ lo) 0 ↔ (controlPhase cw).extractLsb' 0 2 = lo := by
  rw [← and_lowMask]
  exact (and_fields cw 0 0 ((0 : BitVec 2) ++ lo) 3 0 0).trans (by simp)

theorem fits_cpRow (c : ControlPoint) {g g' : RowGroup} {cw : BitVec 9} :
    (RowKey.control g 0b111100000 (packControl c.code 0 0) none).fits (.control g' cw) = true ↔
      g = g' ∧ controlCp cw = c.code :=
  fits_control.trans (and_congr_right' and_cpMask)

theorem fits_busyRow (c : ControlPoint) {g g' : RowGroup} {cw : BitVec 9} :
    (RowKey.control g 0b111100000 (packControl c.code 0 0) (some (0b000011110, packControl 0 15 0))).fits
        (.control g' cw) =
      true ↔ (g = g' ∧ controlCp cw = c.code) ∧ controlPhase cw ≠ 15 :=
  fits_control_excluding.trans (and_congr (and_congr_right' and_cpMask) (not_congr and_phaseMask))

theorem fits_partRow (c : ControlPoint) (hi : BitVec 2) {g g' : RowGroup} {cw : BitVec 9} :
    (RowKey.control g 0b111111000 (packControl c.code (hi ++ (0 : BitVec 2)) 0) none).fits (.control g' cw) = true ↔
      g = g' ∧ controlCp cw = c.code ∧ (controlPhase cw).extractLsb' 2 2 = hi :=
  fits_control.trans (and_congr_right' and_partMask)

theorem fits_strobeRow (c : ControlPoint) (hi : BitVec 2) {g g' : RowGroup} {cw : BitVec 9} :
    (RowKey.control g 0b111111000 (packControl c.code (hi ++ (0 : BitVec 2)) 0)
      (some (0b000000110, packControl 0 ((0 : BitVec 2) ++ (3 : BitVec 2)) 0))).fits (.control g' cw) = true ↔
      (g = g' ∧ controlCp cw = c.code ∧ (controlPhase cw).extractLsb' 2 2 = hi) ∧
        (controlPhase cw).extractLsb' 0 2 ≠ 3 :=
  fits_control_excluding.trans (and_congr (and_congr_right' and_partMask) (not_congr and_lowPhaseMask))

theorem fits_wholeRow (c : ControlPoint) (p : BitVec 4) (f : BitVec 1) {g g' : RowGroup} {cw : BitVec 9} :
    (RowKey.control g 0b111111111 (packControl c.code p f) none).fits (.control g' cw) = true ↔
      g = g' ∧ controlCp cw = c.code ∧ controlPhase cw = p ∧ controlFault cw = f :=
  fits_control.trans (and_congr_right' and_controlMask)

/-! ### The decoder against the control rows -/

theorem decode_loop {cw : BitVec 9} {c : ControlPoint} (cp : controlCp cw = c.code) :
    decode (.control .loop cw) = decodeLoop c (controlPhase cw) := by
  rw [← decode_loop_pack c _ (controlFault cw), ← cp, controlWord_fields]

theorem decode_call {cw : BitVec 9} {c : ControlPoint} (cp : controlCp cw = c.code) :
    decode (.control .call cw) = decodeCall c (controlPhase cw) := by
  rw [← decode_call_pack c _ (controlFault cw), ← cp, controlWord_fields]

theorem decode_part {cw : BitVec 9} {c : ControlPoint} (cp : controlCp cw = c.code) :
    decode (.control .part cw) = decodePart c (controlPhase cw) := by
  rw [← decode_part_pack c _ (controlFault cw), ← cp, controlWord_fields]

theorem decode_ret {cw : BitVec 9} {c : ControlPoint} (cp : controlCp cw = c.code) :
    decode (.control .ret cw) = decodeRet c (controlPhase cw) (controlFault cw) := by
  rw [← decode_ret_pack c, ← cp, controlWord_fields]

/-- A phase in the fourth part of a write that is not the strobe's fourth is not `W_IDLE`. -/
theorem phase_ne_idle : ∀ phase : BitVec 4, phase.extractLsb' 0 2 ≠ 3 → phase ≠ 15 := by decide

/-- Where a row fits, the decoder answers that row, with the operand that the word carries (30_encoding.md R107). -/
theorem decode_of_fits {i : Instr} {g : RowGroup} {cw : BitVec 9} (fits : i.row.fits (.control g cw) = true) :
    ∃ i', decode (.control g cw) = .ok i' ∧ i'.row = i.row := by
  cases i
  case ack => obtain ⟨rfl, cp⟩ := (fits_cpRow .ackTx).mp fits; exact ⟨_, decode_loop cp, rfl⟩
  case confirm => obtain ⟨rfl, cp⟩ := (fits_cpRow .confirmTx).mp fits; exact ⟨_, decode_loop cp, rfl⟩
  case finReport => obtain ⟨rfl, cp⟩ := (fits_cpRow .report).mp fits; exact ⟨_, decode_loop cp, rfl⟩
  case sessionBegin p =>
    obtain ⟨rfl, cp, part⟩ := (fits_partRow .beginRun 0).mp fits
    exact ⟨_, (decode_loop cp).trans (if_pos part), rfl⟩
  case beginSession p =>
    obtain ⟨rfl, cp, part⟩ := (fits_partRow .beginRun 0).mp fits
    exact ⟨_, (decode_call cp).trans (if_pos part), rfl⟩
  case finEnd p =>
    obtain ⟨rfl, cp, part⟩ := (fits_partRow .endRun 1).mp fits
    exact ⟨_, (decode_loop cp).trans (if_pos part), rfl⟩
  case endSession p =>
    obtain ⟨rfl, cp, part⟩ := (fits_partRow .endRun 1).mp fits
    exact ⟨_, (decode_call cp).trans (if_pos part), rfl⟩
  case wrStep p =>
    obtain ⟨⟨rfl, cp⟩, busy⟩ := (fits_busyRow .write).mp fits
    exact ⟨_, (decode_loop cp).trans (if_neg busy), rfl⟩
  case writeByte p =>
    obtain ⟨⟨rfl, cp⟩, busy⟩ := (fits_busyRow .write).mp fits
    exact ⟨_, (decode_call cp).trans (if_neg busy), rfl⟩
  case latchAh p =>
    obtain ⟨rfl, cp, part⟩ := (fits_partRow .write 0).mp fits
    exact ⟨.latchAh ((controlPhase cw).extractLsb' 0 2), by simp [decode_part cp, decodePart, part], rfl⟩
  case latchAl p =>
    obtain ⟨rfl, cp, part⟩ := (fits_partRow .write 1).mp fits
    exact ⟨.latchAl ((controlPhase cw).extractLsb' 0 2), by simp [decode_part cp, decodePart, part], rfl⟩
  case latchD p =>
    obtain ⟨rfl, cp, part⟩ := (fits_partRow .write 2).mp fits
    exact ⟨.latchD ((controlPhase cw).extractLsb' 0 2), by simp [decode_part cp, decodePart, part], rfl⟩
  case wePulse p =>
    obtain ⟨⟨rfl, cp, part⟩, strobe⟩ := (fits_strobeRow .write 3).mp fits
    have busy := phase_ne_idle _ strobe
    exact ⟨.wePulse ((controlPhase cw).extractLsb' 0 2), by simp [decode_part cp, decodePart, part]; exact busy, rfl⟩
  case wrOk =>
    obtain ⟨rfl, cp, last, good⟩ := (fits_wholeRow .write 14 0).mp fits
    exact ⟨.wrOk, by rw [decode_ret cp, last, good]; rfl, rfl⟩
  case wrErr =>
    obtain ⟨rfl, cp, last, fault⟩ := (fits_wholeRow .write 14 1).mp fits
    exact ⟨.wrErr, by rw [decode_ret cp, last, fault]; rfl, rfl⟩
  all_goals cases fits

theorem code_of_ofCode : ∀ x : BitVec 4, ∀ c ∈ ControlPoint.ofCode x, x = c.code := by decide

/-- A control word that decodes names a control point. -/
theorem controlCp_of_decode {g : RowGroup} {cw : BitVec 9} {i : Instr} (dec : decode (.control g cw) = .ok i) :
    ∃ c : ControlPoint, controlCp cw = c.code := by
  cases named : ControlPoint.ofCode (controlCp cw) with
  | none => simp only [decode, decodeControl, named] at dec; cases dec
  | some c => exact ⟨c, code_of_ofCode _ c named⟩

/-- What the decoder answers to a control word fits it (30_encoding.md R107). -/
theorem fits_of_decode {g : RowGroup} {cw : BitVec 9} {i : Instr} (dec : decode (.control g cw) = .ok i) :
    i.row.fits (.control g cw) = true := by
  obtain ⟨c, cp⟩ := controlCp_of_decode dec
  cases g
  case loop =>
    rw [decode_loop cp] at dec
    cases c
    case ackTx => cases dec; exact (fits_cpRow .ackTx).mpr ⟨rfl, cp⟩
    case confirmTx => cases dec; exact (fits_cpRow .confirmTx).mpr ⟨rfl, cp⟩
    case report => cases dec; exact (fits_cpRow .report).mpr ⟨rfl, cp⟩
    case beginRun =>
      simp only [decodeLoop] at dec
      split_ifs at dec with part
      cases dec
      exact (fits_partRow .beginRun 0).mpr ⟨rfl, cp, part⟩
    case endRun =>
      simp only [decodeLoop] at dec
      split_ifs at dec with part
      cases dec
      exact (fits_partRow .endRun 1).mpr ⟨rfl, cp, part⟩
    case write =>
      simp only [decodeLoop] at dec
      split_ifs at dec with idle
      cases dec
      exact (fits_busyRow .write).mpr ⟨⟨rfl, cp⟩, idle⟩
    all_goals cases dec
  case call =>
    rw [decode_call cp] at dec
    cases c
    case beginRun =>
      simp only [decodeCall] at dec
      split_ifs at dec with part
      cases dec
      exact (fits_partRow .beginRun 0).mpr ⟨rfl, cp, part⟩
    case endRun =>
      simp only [decodeCall] at dec
      split_ifs at dec with part
      cases dec
      exact (fits_partRow .endRun 1).mpr ⟨rfl, cp, part⟩
    case write =>
      simp only [decodeCall] at dec
      split_ifs at dec with idle
      cases dec
      exact (fits_busyRow .write).mpr ⟨⟨rfl, cp⟩, idle⟩
    all_goals cases dec
  case part =>
    rw [decode_part cp] at dec
    cases c
    case write =>
      simp only [decodePart] at dec
      split_ifs at dec with ah al d idle <;> cases dec
      · exact (fits_partRow .write 0).mpr ⟨rfl, cp, ah⟩
      · exact (fits_partRow .write 1).mpr ⟨rfl, cp, al⟩
      · exact (fits_partRow .write 2).mpr ⟨rfl, cp, d⟩
      · have strobe : (controlPhase cw).extractLsb' 2 2 = 3 := by
          have := Safety.pair_cases ((controlPhase cw).extractLsb' 2 2)
          tauto
        exact (fits_strobeRow .write 3).mpr ⟨⟨rfl, cp, strobe⟩, strobe_phase _ ah al d idle⟩
    all_goals cases dec
  case ret =>
    rw [decode_ret cp] at dec
    cases c
    case write =>
      simp only [decodeRet] at dec
      split_ifs at dec with last good <;> cases dec
      · exact (fits_wholeRow .write 14 0).mpr ⟨rfl, cp, last, good⟩
      · exact (fits_wholeRow .write 14 1).mpr ⟨rfl, cp, last, (Machine.level_zero_or_one _).resolve_left good⟩
    all_goals cases dec

/-- Settles O4: a row that fits is what the decoder answers but for its operand, and what it answers fits. -/
theorem controlDecodingFollowsTheTable : Obligations.ControlDecodingFollowsTheTable := by
  intro g cw k mem
  obtain ⟨i, rfl⟩ := mem_table.mp mem
  exact ⟨decode_of_fits, fun ⟨i', dec, row⟩ => row ▸ fits_of_decode dec⟩

end Sys2Proof
end

section
/-! PROOF. What the control loop keeps true (10_state.md R46): every part of `Consistent`, through a turn of the CORE
by its results, through the block's reset, and through the acts that reach only the channels and the host. -/

namespace Sys2Proof.Machine

/-! ### The lines that a phase leaves alone -/

@[simp] theorem wPhaseStep_csN (p : WPhase) (s : State) : (wPhaseStep p s).lines.csN = s.lines.csN := by cases p <;> rfl
@[simp] theorem wPhaseStep_oeN (p : WPhase) (s : State) : (wPhaseStep p s).lines.oeN = s.lines.oeN := by cases p <;> rfl
@[simp] theorem wPhaseStep_trstN (p : WPhase) (s : State) : (wPhaseStep p s).lines.trstN = s.lines.trstN := by
  cases p <;> rfl
@[simp] theorem wPhaseStep_loeN (p : WPhase) (s : State) : (wPhaseStep p s).lines.loeN = s.lines.loeN := by
  cases p <;> rfl

@[simp] theorem sPhaseStep_bus (p : SPhase) (s : State) : (sPhaseStep p s).lines.bus = s.lines.bus := by cases p <;> rfl
@[simp] theorem sPhaseStep_leAh (p : SPhase) (s : State) : (sPhaseStep p s).lines.leAh = s.lines.leAh := by
  cases p <;> rfl
@[simp] theorem sPhaseStep_leAl (p : SPhase) (s : State) : (sPhaseStep p s).lines.leAl = s.lines.leAl := by
  cases p <;> rfl
@[simp] theorem sPhaseStep_leD (p : SPhase) (s : State) : (sPhaseStep p s).lines.leD = s.lines.leD := by cases p <;> rfl
@[simp] theorem sPhaseStep_weN (p : SPhase) (s : State) : (sPhaseStep p s).lines.weN = s.lines.weN := by cases p <;> rfl
@[simp] theorem sPhaseStep_oeN (p : SPhase) (s : State) : (sPhaseStep p s).lines.oeN = s.lines.oeN := by cases p <;> rfl

end Sys2Proof.Machine

namespace Sys2Proof.Safety

open Sys2Proof.Machine

/-! ### A turn of the CORE, part by part

Each part is looked at result by result: first the results that move what the part speaks of, then, with one call, all
those that leave it as it was or give it the value that their row writes. -/

theorem coreResult_control {u t : State} (h : CoreResult u t) (control : ControlConsistent u) :
    ControlConsistent t := by
  cases h
  case wr hc _ _ ht =>
    subst ht
    cases hp : u.wphase <;> simp_all [ControlConsistent, nextWPhase]
  case sessionBegin hc phase ht =>
    rcases phase with hp | hp | hp <;> simp_all [ControlConsistent, nextSPhase, SPhase.inBegin]
  case finEnd hc phase ht =>
    rcases phase with hp | hp | hp <;> simp_all [ControlConsistent, nextSPhase, SPhase.inEnd]
  case closed hc _ ht => rcases hc with hc | hc <;> simp_all [ControlConsistent]
  case stall hc _ ht => rcases hc with hc | hc <;> simp_all [ControlConsistent]
  all_goals simp_all [ControlConsistent, SPhase.inBegin, SPhase.inEnd]

theorem coreResult_error {u t : State} (h : CoreResult u t) (error : ErrorConfined u) : ErrorConfined t := by
  cases h
  all_goals simp_all [ErrorConfined]

theorem coreResult_flag {u t : State} (h : CoreResult u t) (error : ErrorConfined u) (flag : SessionFlagRight u) :
    SessionFlagRight t := by
  cases h
  all_goals simp_all [SessionFlagRight, sessionLive, ErrorConfined, Session.cleared]

theorem coreResult_sessionLines {u t : State} (h : CoreResult u t) (flag : SessionFlagRight u)
    (lines : SessionLinesRight u) : SessionLinesRight t := by
  cases h
  case sessionBegin hc phase ht =>
    rcases phase with hp | hp | hp <;>
      simp_all [SessionLinesRight, sessionLevels, sPhaseStep, sPhaseAct, nextSPhase, BusLines.drive]
  case finEnd hc phase ht =>
    cases live : u.sess.valid <;> rcases phase with hp | hp | hp <;>
      simp_all [SessionLinesRight, sessionLevels, sPhaseStep, sPhaseAct, nextSPhase, BusLines.drive]
  all_goals
    simp_all [SessionFlagRight, sessionLive, SessionLinesRight, sessionLevels, sPhaseStep, sPhaseAct, BusLines.drive]

theorem coreResult_strobes {u t : State} (h : CoreResult u t) (control : ControlConsistent u)
    (strobes : StrobesRight u) : StrobesRight t := by
  cases h
  case wr hc _ _ ht =>
    subst ht
    cases hp : u.wphase <;>
      simp_all [StrobesRight, assertLevel, releaseLevel, wPhaseStep, wPhaseAct, nextWPhase, BusLines.drive]
  case wrOk hc hp _ ht =>
    simp_all [StrobesRight, releaseLevel, wPhaseStep, wPhaseAct, BusLines.drive]
  case wrErr hc hp _ ht =>
    simp_all [StrobesRight, releaseLevel, wPhaseStep, wPhaseAct, BusLines.drive]
  all_goals simp_all [ControlConsistent, StrobesRight, assertLevel, releaseLevel]

/-- A phase of a write keeps the write in flight: it puts the byte on the bus, or captures it where the enable line
falls from asserted, or starts the strobe with the RAM selected. -/
theorem wPhaseStep_writeInFlight {s : State} (hcp : s.cp = .write) (selected : s.lines.csN = 0 ∧ s.lines.loeN = 0)
    (strobes : StrobesRight s) (write : WriteInFlightRight s) : WriteInFlightRight (wPhaseStep s.wphase s) := by
  cases hp : s.wphase <;>
    simp_all [WriteInFlightRight, StrobesRight, busByte, latchesLoaded, assertLevel, releaseLevel, wPhaseStep,
      wPhaseAct, nextWPhase, BusLines.drive, BusLines.level, latchesAfter, pulseAfter, captured, releases]

theorem coreResult_write {u t : State} (h : CoreResult u t) (control : ControlConsistent u)
    (lines : SessionLinesRight u) (strobes : StrobesRight u) (write : WriteInFlightRight u) :
    WriteInFlightRight t := by
  cases h
  case wr hc _ _ ht =>
    have selected : u.lines.csN = 0 ∧ u.lines.loeN = 0 := by simp_all [SessionLinesRight, sessionLevels]
    exact ht ▸ wPhaseStep_writeInFlight (s := clearPulses u) hc selected strobes write
  case strData b _ _ data ht => simp_all [ControlConsistent, WriteInFlightRight, busByte, latchesLoaded, endMarker]
  all_goals simp_all [ControlConsistent, WriteInFlightRight, busByte, latchesLoaded]

/-- `cursor` and `bytes_written` go up together (42_upload_protocol.md R187). -/
theorem nextCursor_count (a : Addr) (n : BitVec 32) :
    nextCursor (a + n.setWidth 16) = a + (nextCount n).setWidth 16 := by
  simp only [nextCursor, nextCount]
  bv_omega

theorem coreResult_cursor {u t : State} (h : CoreResult u t) (flag : SessionFlagRight u) (cursor : CursorCounts u) :
    CursorCounts t := by
  cases h
  all_goals simp_all [CursorCounts, SessionFlagRight, sessionLive, Session.cleared, nextCursor_count]

theorem coreResult_outputEnable {u t : State} (h : CoreResult u t) (rest : u.lines.oeN = 1) : t.lines.oeN = 1 := by
  cases h
  all_goals simp_all

theorem coreResult_consistent {u t : State} (h : CoreResult u t) (c : Consistent u) : Consistent t where
  control := coreResult_control h c.control
  error := coreResult_error h c.error
  flag := coreResult_flag h c.error c.flag
  sessionLines := coreResult_sessionLines h c.flag c.sessionLines
  strobes := coreResult_strobes h c.control c.strobes
  write := coreResult_write h c.control c.sessionLines c.strobes c.write
  cursor := coreResult_cursor h c.flag c.cursor
  outputEnable := coreResult_outputEnable h c.outputEnable

/-! ### The environment's acts and the reset -/

/-- Consistency looks at no input of the CORE's turn, no channel and no host. -/
theorem Consistent.environment {s : State} (c : Consistent s) (now : Nat) (timer : WaitTimer) (ports : InPorts)
    (rx tx : List Byte) (host : HostRun) (env : List EnvAct) :
    Consistent { s with now := now, timer := timer, ports := ports, rx := rx, tx := tx, host := host, env := env } :=
  ⟨c.control, c.error, c.flag, c.sessionLines, c.strobes, c.write, c.cursor, c.outputEnable⟩

theorem Consistent.turn {s u : State} (c : Consistent s) (turn : CoreTurn s u) : Consistent u := by
  obtain ⟨dt, ports, timer, env, rfl⟩ := coreTurn_frame turn
  exact c.environment _ timer ports s.rx s.tx s.host env

/-- With the block in Idle, no session, no operation in flight and every line at rest, all is consistent. -/
theorem consistent_atRest {s : State} (hcp : s.cp = .idleWait) (herr : s.err = .none) (hw : s.wphase = .wIdle)
    (hs : s.sphase = .sIdle) (hsess : s.sess = Session.cleared) (hl : s.lines = BusLines.atReset s.params.leActive) :
    Consistent s := by
  constructor <;>
    simp [hcp, herr, hw, hs, hsess, hl, Session.cleared, BusLines.atReset, ControlConsistent, ErrorConfined,
      SessionFlagRight, SessionLinesRight, StrobesRight, WriteInFlightRight, CursorCounts, sessionLive, sessionLevels,
      releaseLevel, busByte, latchesLoaded]

theorem blockReset_consistent (s : State) : Consistent (blockReset s) := by
  rw [blockReset_eq]
  exact consistent_atRest rfl rfl rfl rfl rfl rfl

/-- Settles O45: the CORE's turn by its results, the reset by what it leaves, and the other acts by what consistency
does not look at. -/
theorem stepKeepsConsistency : Obligations.StepKeepsConsistency := by
  intro s t c h
  cases step_case h with
  | core u turn ht => exact coreResult_consistent (core_result ht) (c.turn turn)
  | reset rest head ht => exact ht ▸ blockReset_consistent _
  | outside rest rx tx host ht => exact ht ▸ c.environment s.now s.timer s.ports rx tx host rest

/-- Settles O46: the reset state is at rest, and nothing has been written or sent. -/
theorem resetStateIsConsistent : Obligations.ResetStateIsConsistent :=
  ⟨consistent_atRest rfl rfl rfl rfl rfl rfl, reset_mem_wf, nofun, nofun⟩

/-! ### No stuck state -/

theorem perform_run (i : Instr) (s : State) : ∃ t, perform (.run i s) = .next t := exec_total i s

/-- Where the control state is consistent, the CORE's turn is answered: at a wait point by the event's row or by
waiting, elsewhere by the row of the phase (60_exceptions.md R257). -/
theorem fetchCore_answers {u : State} (control : ControlConsistent u) : ∃ t, perform (fetchCore u) = .next t := by
  cases hc : u.cp
  case idleWait =>
    cases hp : pendingEvent u with
    | none => rw [fetchCore_none (by rw [hc]; rfl) hp]; exact ⟨_, rfl⟩
    | some e => rw [fetchCore_idle hc hp]; exact perform_run _ _
  case hdrWait =>
    cases hp : pendingEvent u with
    | none => rw [fetchCore_none (by rw [hc]; rfl) hp]; exact ⟨_, rfl⟩
    | some e => rw [fetchCore_hdr hc hp]; exact perform_run _ _
  case strWait =>
    cases hp : pendingEvent u with
    | none => rw [fetchCore_none (by rw [hc]; rfl) hp]; exact ⟨_, rfl⟩
    | some e => rw [fetchCore_str hc hp]; exact perform_run _ _
  case ackTx => rw [fetchCore_ack hc]; exact perform_run _ _
  case confirmTx => rw [fetchCore_confirm hc]; exact perform_run _ _
  case report => rw [fetchCore_report hc]; exact perform_run _ _
  case write =>
    have busy : u.wphase ≠ .wIdle := by simp_all [ControlConsistent]
    rw [fetchCore_write hc busy]; exact perform_run _ _
  case beginRun =>
    have phase : SPhase.inBegin u.sphase = true := by simp_all [ControlConsistent]
    rw [fetchCore_begin hc (by simpa [SPhase.inBegin, or_assoc] using phase)]; exact perform_run _ _
  case endRun =>
    have phase : SPhase.inEnd u.sphase = true := by simp_all [ControlConsistent]
    rw [fetchCore_end hc (by simpa [SPhase.inEnd, or_assoc] using phase)]; exact perform_run _ _

/-- Settles O47: the CORE's turn is answered from a consistent state, and the other acts are answered from any. -/
theorem consistentStatesStep : Obligations.ConsistentStatesStep := by
  intro s c
  cases he : s.env with
  | nil => rw [step_core he]; exact fetchCore_answers c.control
  | cons a rest =>
    cases a with
    | core dt ports expire =>
      have turn : CoreTurn s (setInputs dt ports expire { s with env := rest }) :=
        .inr ⟨dt, ports, expire, rest, he, rfl⟩
      rw [step_of_coreTurn turn]
      exact fetchCore_answers (c.turn turn).control
    | host linkError =>
      rw [step_act he, fetchAct, fetchHost]
      split
      · exact ⟨_, rfl⟩
      · exact perform_run _ _
    | upload start image linkError => rw [step_act he]; exact perform_run _ _
    | send b => rw [step_act he]; exact ⟨_, rfl⟩
    | drain => rw [step_act he]; exact ⟨_, rfl⟩
    | reset => rw [step_act he]; exact ⟨_, rfl⟩

/-! ### The target -/

/-- The levels that the loop calls for put the block off the bus wherever the target runs (41_session_controller.md
R154). -/
theorem sessionLevels_safe (cp : ControlPoint) (p : SPhase) (live : Bool) :
    (sessionLevels cp p live).1 = 1 → (sessionLevels cp p live).2.1 = 1 ∧ (sessionLevels cp p live).2.2 = 1 := by
  unfold sessionLevels
  repeat' split
  all_goals simp

theorem SessionLinesRight.busSafe {s : State} (lines : SessionLinesRight s) : BusSafe s := by
  have safe := sessionLevels_safe s.cp s.sphase s.sess.valid
  rwa [← lines] at safe

/-- Where the block is on the bus, the target is held. -/
theorem BusSafe.held {s : State} (safe : BusSafe s) (taken : s.lines.csN = 0 ∨ s.lines.loeN = 0) :
    s.lines.trstN = 0 := by
  refine (level_zero_or_one s.lines.trstN).resolve_right fun runs => ?_
  obtain ⟨cs, loe⟩ := safe runs
  simp [cs, loe] at taken

/-- A turn of the CORE takes the bus only with the target held before it (41_session_controller.md R154). -/
theorem coreResult_heldBefore {u t : State} (h : CoreResult u t) (lines : SessionLinesRight u)
    (taken : t.lines.csN = 0 ∨ t.lines.loeN = 0) : u.lines.trstN = 0 := by
  refine (level_zero_or_one u.lines.trstN).resolve_right fun runs => ?_
  obtain ⟨cs, loe⟩ := lines.busSafe runs
  cases h
  case sessionBegin hc phase ht =>
    rcases phase with hp | hp | hp <;>
      simp_all [SessionLinesRight, sessionLevels, sPhaseStep, sPhaseAct, BusLines.drive]
  case finEnd hc phase ht =>
    rcases phase with hp | hp | hp <;> simp_all [sPhaseStep, sPhaseAct, BusLines.drive]
  all_goals simp_all [SessionLinesRight, sessionLevels, sPhaseStep, sPhaseAct]

/-- Settles O48: the session lines of a consistent state are those the loop's place calls for, and the two phases that
take the bus come with the target held. -/
theorem targetRunsOnlyOffTheBus : Obligations.TargetRunsOnlyOffTheBus := by
  intro s t c h
  have c' := stepKeepsConsistency s t c h
  refine ⟨c.sessionLines.busSafe, c'.sessionLines.busSafe, c'.outputEnable,
    fun taken => ⟨?_, c'.sessionLines.busSafe.held taken⟩⟩
  cases step_case h with
  | core u turn ht =>
    have held := coreResult_heldBefore (core_result ht) (c.turn turn).sessionLines taken
    obtain ⟨_, _, _, _, rfl⟩ := coreTurn_frame turn
    exact held
  | reset rest head ht => subst ht; simp [blockReset, BusLines.atReset] at taken
  | outside rest rx tx host ht => subst ht; exact c.sessionLines.busSafe.held taken

/-- Settles O24: the three entries into failure; the two events are pending only at an empty channel. -/
theorem onlyThreeCausesOfFailure : Obligations.OnlyThreeCausesOfFailure := by
  intro s t h noErr failed
  obtain ⟨u, turn, entry⟩ := step_failure_case h noErr failed
  obtain ⟨cp, phase, -, -, rx⟩ := coreTurn_keeps turn
  refine ⟨u, turn, ?_⟩
  cases entry with
  | header hc hp ht => exact .inl ⟨by rw [ht]; rfl, cp ▸ hc, rx ▸ rx_nil_of_pendingEvent hp nofun, hp⟩
  | stream hc hp ht => exact .inr (.inl ⟨by rw [ht]; rfl, cp ▸ hc, rx ▸ rx_nil_of_pendingEvent hp nofun, hp⟩)
  | write hc hp hf ht => exact .inr (.inr ⟨by rw [ht]; rfl, cp ▸ hc, phase ▸ hp, hf⟩)

end Sys2Proof.Safety
end

section
/-! PROOF. The rules of the whole machine: what one step, the environment's acts and the block's reset among them, can
do to the channels, the lines, the trace, the RAM, the time, the control point and the session. -/

namespace Sys2Proof.Machine

open Sys2Proof.Safety

/-! ### The event of a phase -/

/-- What a phase of a write emits: its place in the pulse train, nothing at `W_IDLE` (40_bus_sequencer.md R127). -/
def wPhaseEvents (p : WPhase) (s : State) : List OutEvent :=
  ((writeTrain s.params.leActive s.wr.addr s.wr.data).drop p.code.toNat).take 1

/-- What a phase of the session controller emits: its place in the two trains (41_session_controller.md R159). -/
def sPhaseEvents (p : SPhase) : List OutEvent := ((beginTrain ++ endTrain).drop p.code.toNat).take 1

theorem wPhaseStep_trace (p : WPhase) (s : State) : (wPhaseStep p s).trace = s.trace ++ wPhaseEvents p s := by
  cases p
  case wIdle => exact (List.append_nil _).symm
  all_goals rfl

theorem wPhaseStep_lines (p : WPhase) (s : State) :
    (wPhaseStep p s).lines = (wPhaseEvents p s).foldl linesAfter s.lines := by cases p <;> rfl

theorem sPhaseStep_trace (p : SPhase) (s : State) : (sPhaseStep p s).trace = s.trace ++ sPhaseEvents p := by
  cases p
  case sIdle => exact (List.append_nil _).symm
  all_goals rfl

theorem sPhaseStep_lines (p : SPhase) (s : State) :
    (sPhaseStep p s).lines = (sPhaseEvents p).foldl linesAfter s.lines := by cases p <;> rfl

theorem tx_notIn_wPhaseEvents (p : WPhase) (s : State) (b : Byte) : OutEvent.tx b ∉ wPhaseEvents p s := by
  cases p <;> simp [wPhaseEvents, writeTrain, WPhase.code]

theorem tx_notIn_sPhaseEvents (p : SPhase) (b : Byte) : OutEvent.tx b ∉ sPhaseEvents p := by
  cases p <;> simp [sPhaseEvents, beginTrain, endTrain, SPhase.code]

/-! ### What a turn of the CORE emits -/

/-- Between two states of the block: the events emitted, the lines as those events say (10_state.md R34), and no byte
sent but the two replies (30_encoding.md R91). -/
def Emits (u t : State) (es : List OutEvent) : Prop :=
  t.trace = u.trace ++ es ∧ t.lines = es.foldl linesAfter u.lines ∧ ∀ b, OutEvent.tx b ∈ es → b = 0x41 ∨ b = 0x4B

theorem Emits.none {u t : State} (trace : t.trace = u.trace) (lines : t.lines = u.lines) : Emits u t [] :=
  ⟨trace.trans (List.append_nil _).symm, lines, nofun⟩

theorem wPhaseStep_emits (p : WPhase) (s : State) : Emits s (wPhaseStep p s) (wPhaseEvents p s) :=
  ⟨wPhaseStep_trace p s, wPhaseStep_lines p s, fun b sent => absurd sent (tx_notIn_wPhaseEvents p s b)⟩

theorem sPhaseStep_emits (p : SPhase) (s : State) : Emits s (sPhaseStep p s) (sPhaseEvents p) :=
  ⟨sPhaseStep_trace p s, sPhaseStep_lines p s, fun b sent => absurd sent (tx_notIn_sPhaseEvents p b)⟩

theorem coreResult_emits {u t : State} (h : CoreResult u t) : ∃ es, Emits u t es := by
  cases h
  case strTmo ht => subst ht; exact ⟨[.warn], rfl, rfl, by simp⟩
  case ack ht => subst ht; exact ⟨[.tx ackByte], rfl, rfl, by simp [ackByte]⟩
  case confirm ht => subst ht; exact ⟨[.tx confirmByte], rfl, rfl, by simp [confirmByte]⟩
  case report ht => subst ht; exact ⟨[.result (resultOf u)], rfl, rfl, by simp⟩
  case wr ht => subst ht; exact ⟨_, wPhaseStep_emits u.wphase (clearPulses u)⟩
  case wrOk ht => subst ht; exact ⟨_, wPhaseStep_emits .weHigh (clearPulses u)⟩
  case wrErr ht => subst ht; exact ⟨_, wPhaseStep_emits .weHigh (clearPulses u)⟩
  case sessionBegin ht => subst ht; exact ⟨_, sPhaseStep_emits u.sphase (clearPulses u)⟩
  case sessionOpen ht => subst ht; exact ⟨_, sPhaseStep_emits .bLoe (clearPulses u)⟩
  case finEnd ht => subst ht; exact ⟨_, sPhaseStep_emits u.sphase (clearPulses u)⟩
  case finEndLast ht => subst ht; exact ⟨_, sPhaseStep_emits .eSettle (clearPulses u)⟩
  all_goals exact ⟨[], .none (by simp [*]) (by simp [*])⟩ -- the rows without an event

/-- The device sends the acknowledge at CP_ACK_TX, the confirm at CP_CONFIRM_TX, and nothing elsewhere. -/
theorem coreResult_tx {u t : State} (h : CoreResult u t) {b : Byte} (sent : b ∈ t.tx) :
    b ∈ u.tx ∨ b = 0x41 ∨ b = 0x4B := by
  cases h
  case ack ht =>
    have : b ∈ u.tx ∨ b = 0x41 := by simpa [ht, ackByte] using sent
    tauto
  case confirm ht =>
    have : b ∈ u.tx ∨ b = 0x4B := by simpa [ht, confirmByte] using sent
    tauto
  all_goals exact .inl (by simp_all)

/-! ### The RAM -/

/-- Before its last phase a write leaves the RAM (20_memory.md R69). -/
theorem wPhaseStep_mem {p : WPhase} (last : p ≠ .weHigh) (s : State) : (wPhaseStep p s).mem = s.mem := by
  cases p
  case weHigh => exact absurd rfl last
  case weLow => simp [wPhaseStep, wPhaseAct, memAfter]
  all_goals rfl

/-- The CORE changes the RAM at the end of a strobe only (20_memory.md R69). -/
theorem coreResult_mem_write {u t : State} (h : CoreResult u t) :
    t.mem = u.mem ∨ u.cp = .write ∧ u.wphase = .weHigh ∧ t.mem = memAfter .weN 1 u := by
  cases h
  case wr last ht => exact .inl (by rw [ht, wPhaseStep_mem last, clearPulses_mem])
  case wrOk hc hp _ ht => exact .inr ⟨hc, hp, by rw [ht]; rfl⟩
  case wrErr hc hp _ ht => exact .inr ⟨hc, hp, by rw [ht]; rfl⟩
  all_goals exact .inl (by simp [*])

theorem memAfter_weN (v : Level) (s : State) :
    memAfter .weN v s = s.mem ∨ memAfter .weN v s = Memory.write s.mem (latchAddress s.latches).toNat s.latches.dl := by
  simp only [memAfter]
  split
  · exact .inr rfl
  · exact .inl rfl

/-- A reset inside a strobe leaves a free byte in the latched cell, and any other reset leaves the RAM
(70_reset_and_hazards.md R283). -/
theorem blockReset_mem (s : State) :
    (blockReset s).mem = s.mem ∨ (s.wphase = .weHold ∨ s.wphase = .weHigh) ∧
      (blockReset s).mem = Memory.write s.mem (latchAddress s.latches).toNat (Config.freeByte s.draws) := by
  rw [blockReset_eq]
  unfold cutPulse
  cases s.wphase
  case weHold => exact .inr ⟨.inl rfl, rfl⟩
  case weHigh => exact .inr ⟨.inr rfl, rfl⟩
  all_goals exact .inl rfl

/-- A step leaves the RAM, or writes the latched cell: at the end of a strobe, or in a reset inside one
(20_memory.md R69, R70; 70_reset_and_hazards.md R283). -/
theorem step_mem_cases {s t : State} (h : step s = .next t) :
    t.mem = s.mem ∨ ((s.cp = .write ∧ s.wphase = .weHigh) ∨
        (s.env.head? = some .reset ∧ (s.wphase = .weHold ∨ s.wphase = .weHigh))) ∧
      ∃ b, t.mem = Memory.write s.mem (latchAddress s.latches).toNat b := by
  cases step_case h with
  | core u turn ht =>
    obtain ⟨_, _, _, _, rfl⟩ := coreTurn_frame turn
    rcases coreResult_mem_write (core_result ht) with same | ⟨hc, hp, mem⟩
    · exact .inl same
    · rcases memAfter_weN 1 s with same | written
      · exact .inl (mem.trans same)
      · exact .inr ⟨.inl ⟨hc, hp⟩, _, mem.trans written⟩
  | reset rest head ht =>
    subst ht
    rcases blockReset_mem { s with env := rest } with same | ⟨hp, written⟩
    · exact .inl same
    · exact .inr ⟨.inr ⟨by rw [head]; rfl, hp⟩, _, written⟩
  | outside rest rx tx host ht => exact .inl (by rw [ht])

/-! ### The events taken -/

theorem rx_nil_of_pendingEvent_none {s : State} (h : pendingEvent s = none) : s.rx = [] := by
  unfold pendingEvent at h
  cases hr : s.rx with
  | nil => rfl
  | cons b rest => rw [hr] at h; cases h

theorem takeEvent_rx {s : State} {e : Event} (h : pendingEvent s = some e) : (takeEvent e s).rx = s.rx.tail := by
  cases e with
  | byte b => rfl
  | timeout => simp [takeEvent, rx_nil_of_pendingEvent h nofun]
  | closed => simp [takeEvent, rx_nil_of_pendingEvent h nofun]

/-- With a byte in the channel the event taken is a byte, which leaves the ports. -/
theorem takeEvent_ports {s : State} {e : Event} (h : pendingEvent s = some e) (byte : s.rx ≠ []) :
    (takeEvent e s).ports = s.ports := by
  cases e with
  | byte b => rfl
  | timeout => rfl
  | closed => exact absurd (rx_nil_of_pendingEvent h nofun) byte

/-- What the CORE takes at a wait point: the pending event, or nothing, and no time (00_scope.md R11). -/
theorem coreResult_waits {u t : State} (h : CoreResult u t) (wait : u.cp.isWait = true) :
    t.now = u.now ∧ (pendingEvent u = none ∧ t.rx = u.rx ∧ t.ports = u.ports ∨
      ∃ e, pendingEvent u = some e ∧ t.rx = (takeEvent e u).rx ∧ t.ports = (takeEvent e u).ports) := by
  cases h
  case stall hc _ _ => rcases hc with hc | hc <;> simp_all [ControlPoint.isWait]
  all_goals simp_all [takeEvent, ControlPoint.isWait]

/-- Away from a wait point the CORE takes nothing (20_memory.md section 5). -/
theorem coreResult_takes_nothing {u t : State} (h : CoreResult u t) (busy : u.cp.isWait = false) :
    t.rx = u.rx ∧ t.ports = u.ports := by
  cases h
  case closed hc _ _ => rcases hc with hc | hc <;> simp_all [ControlPoint.isWait]
  all_goals simp_all [ControlPoint.isWait]

/-! ### Time, control point, session -/

theorem wPhaseStep_now (p : WPhase) (s : State) : s.now ≤ (wPhaseStep p s).now := by
  cases p
  case ahHold => exact Nat.le_add_right ..
  case alHold => exact Nat.le_add_right ..
  case dHold => exact Nat.le_add_right ..
  case weHold => exact Nat.le_add_right ..
  all_goals exact Nat.le_refl _

theorem sPhaseStep_now (p : SPhase) (s : State) : s.now ≤ (sPhaseStep p s).now := by
  cases p
  case bSettle => exact Nat.le_add_right ..
  case eSettle => exact Nat.le_add_right ..
  all_goals exact Nat.le_refl _

theorem coreResult_time {u t : State} (h : CoreResult u t) : u.now ≤ t.now ∧ t.params = u.params := by
  cases h
  case wr ht => subst ht; exact ⟨wPhaseStep_now _ (clearPulses u), by simp⟩
  case wrOk ht => subst ht; exact ⟨wPhaseStep_now _ (clearPulses u), by simp⟩
  case wrErr ht => subst ht; exact ⟨wPhaseStep_now _ (clearPulses u), by simp⟩
  case sessionBegin ht => subst ht; exact ⟨sPhaseStep_now _ (clearPulses u), by simp⟩
  case sessionOpen ht => subst ht; exact ⟨sPhaseStep_now _ (clearPulses u), by simp⟩
  case finEnd ht => subst ht; exact ⟨sPhaseStep_now _ (clearPulses u), by simp⟩
  case finEndLast ht => subst ht; exact ⟨sPhaseStep_now _ (clearPulses u), by simp⟩
  all_goals subst t; simp

theorem coreResult_moves {u t : State} (h : CoreResult u t) : t.cp = u.cp ∨ (u.cp, t.cp) ∈ cpMoves := by
  cases h
  all_goals simp_all [cpMoves]

/-- The CORE destroys the session at the report only (42_upload_protocol.md R193). -/
theorem coreResult_sessionStays {u t : State} (h : CoreResult u t) (live : u.sess.valid = true)
    (noReport : u.cp ≠ .report) :
    t.sess.valid = true := by
  cases h
  case report hc _ => exact absurd hc noReport
  all_goals simp_all

/-! ### Other wait bounds -/

theorem wPhaseStep_withBounds (p : WPhase) (i h b : Nat) (s : State) :
    wPhaseStep p (withBounds i h b s) = withBounds i h b (wPhaseStep p s) := by cases p <;> rfl

theorem runWPhases_withBounds (ps : List WPhase) (i h b : Nat) (s : State) :
    runWPhases ps (withBounds i h b s) = withBounds i h b (runWPhases ps s) := by
  induction ps generalizing s with
  | nil => rfl
  | cons p ps ih => rw [runWPhases_cons, runWPhases_cons, wPhaseStep_withBounds, ih]

theorem sPhaseStep_withBounds (p : SPhase) (i h b : Nat) (s : State) :
    sPhaseStep p (withBounds i h b s) = withBounds i h b (sPhaseStep p s) := by cases p <;> rfl

theorem runSPhases_withBounds (ps : List SPhase) (i h b : Nat) (s : State) :
    runSPhases ps (withBounds i h b s) = withBounds i h b (runSPhases ps s) := by
  induction ps generalizing s with
  | nil => rfl
  | cons p ps ih => rw [runSPhases_cons, runSPhases_cons, sPhaseStep_withBounds, ih]

theorem hostReceive_withBounds (want : Byte) (e : UploadError) {good : State → State} (i h b : Nat) (s : State)
    (commutes : ∀ v, good (withBounds i h b v) = withBounds i h b (good v)) :
    hostReceive want e good (withBounds i h b s) = withBounds i h b (hostReceive want e good s) := by
  simp only [hostReceive, show (withBounds i h b s).tx = s.tx from rfl]
  split
  · rfl
  · rename_i rest _
    split
    · exact commutes { s with tx := rest }
    · rfl

theorem hostStep_withBounds (a : Addr) (image : List Byte) (i h b : Nat) (s : State) :
    hostStep a image (withBounds i h b s) = withBounds i h b (hostStep a image s) := by
  simp only [hostStep, show (withBounds i h b s).host = s.host from rfl]
  split
  · rfl
  · cases s.host.phase
    case readAck => exact hostReceive_withBounds _ _ i h b s fun _ => rfl
    case readConfirm => exact hostReceive_withBounds _ _ i h b s fun _ => rfl
    case sendImage =>
      simp only [hostSendImage, show (withBounds i h b s).host = s.host from rfl]
      split <;> rfl
    all_goals rfl

/-- No row looks at the wait bounds (00_scope.md R10). -/
theorem exec_withBounds {j : Instr} {s t : State} (i h b : Nat) (run : exec j s = .next t) :
    exec j (withBounds i h b s) = .next (withBounds i h b t) := by
  cases j
  case ack =>
    simp only [exec, execAck] at run ⊢
    cases ready : s.ports.txReady <;> simp only [ready, withBounds] at run ⊢ <;> cases run <;> rfl
  case confirm =>
    simp only [exec, execConfirm] at run ⊢
    cases ready : s.ports.txReady <;> simp only [ready, withBounds] at run ⊢ <;> cases run <;> rfl
  case latchAh p => cases run; exact congrArg _ (runWPhases_withBounds ..)
  case latchAl p => cases run; exact congrArg _ (runWPhases_withBounds ..)
  case latchD p => cases run; exact congrArg _ (runWPhases_withBounds ..)
  case wePulse p => cases run; exact congrArg _ (runWPhases_withBounds ..)
  case writeByte p => cases run; simp only [exec, execWriteByte, runWPhases_withBounds]; rfl
  case beginSession p => cases run; exact congrArg _ (runSPhases_withBounds ..)
  case endSession p => cases run; exact congrArg _ (runSPhases_withBounds ..)
  case sessionBegin p => rcases pair_cases p with rfl | rfl | rfl | rfl <;> cases run <;> rfl
  case finEnd p => rcases pair_cases p with rfl | rfl | rfl | rfl <;> cases run <;> rfl
  case wrStep p =>
    rw [← wPhase_code_ofCode p] at run ⊢
    by_cases last : WPhase.ofCode p = .weHigh
    · simp only [last, exec, execWrStep, wPhase_ofCode_code, writeResult] at run ⊢
      cases fault : s.ports.busFault <;> simp only [fault, withBounds] at run ⊢ <;> cases run <;> rfl
    · rw [exec_wrStep _ last] at run ⊢
      cases run
      rw [wPhaseStep_withBounds]
  case hUpload a image => cases run; exact congrArg _ (hostStep_withBounds ..)
  all_goals cases run; rfl

/-- What was fetched, with other wait bounds. -/
def Fetched.withBounds (i h b : Nat) : Fetched → Fetched
  | .run j s => .run j (Safety.withBounds i h b s)
  | .still s => .still (Safety.withBounds i h b s)
  | .stuck f => .stuck f

theorem takeEvent_withBounds (e : Event) (i h b : Nat) (s : State) :
    takeEvent e (withBounds i h b s) = withBounds i h b (takeEvent e s) := by cases e <;> rfl

theorem fetchEvent_withBounds (i h b : Nat) (s : State) :
    fetchEvent (withBounds i h b s) = (fetchEvent s).withBounds i h b := by
  unfold fetchEvent
  rw [show pendingEvent (withBounds i h b s) = pendingEvent s from rfl]
  cases pendingEvent s with
  | none => rfl
  | some e =>
    simp only [takeEvent_withBounds, show (withBounds i h b s).cp = s.cp from rfl,
      show (withBounds i h b s).hdrCnt = s.hdrCnt from rfl]
    split <;> rfl

theorem fetchControl_withBounds (i h b : Nat) (s : State) :
    fetchControl (withBounds i h b s) = (fetchControl s).withBounds i h b := by
  unfold fetchControl
  rw [show controlWord (withBounds i h b s) = controlWord s from rfl]
  split <;> rfl

theorem fetchCore_withBounds (i h b : Nat) (s : State) :
    fetchCore (withBounds i h b s) = (fetchCore s).withBounds i h b := by
  unfold fetchCore
  rw [show (withBounds i h b s).cp = s.cp from rfl]
  split
  · exact fetchEvent_withBounds i h b (clearPulses s)
  · exact fetchControl_withBounds i h b (clearPulses s)

theorem fetchHost_withBounds (i h b : Nat) (s : State) :
    fetchHost (withBounds i h b s) = (fetchHost s).withBounds i h b := by
  unfold fetchHost
  rw [show (withBounds i h b s).host = s.host from rfl]
  split <;> rfl

theorem blockReset_withBounds (i h b : Nat) (s : State) :
    blockReset (withBounds i h b s) = withBounds i h b (blockReset s) := by
  unfold blockReset cutPulse
  rw [show (withBounds i h b s).wphase = s.wphase from rfl]
  cases s.wphase <;> rfl

theorem fetch_withBounds (i h b : Nat) (s : State) : fetch (withBounds i h b s) = (fetch s).withBounds i h b := by
  unfold fetch
  rw [show (withBounds i h b s).env = s.env from rfl]
  cases s.env with
  | nil => exact fetchCore_withBounds i h b s
  | cons a rest =>
    cases a with
    | core dt ports expire => exact fetchCore_withBounds i h b (setInputs dt ports expire { s with env := rest })
    | host linkError => exact fetchHost_withBounds i h b (setLink linkError { s with env := rest })
    | reset => exact congrArg _ (blockReset_withBounds i h b { s with env := rest })
    | send c => rfl
    | drain => rfl
    | upload start image linkError => rfl

theorem perform_withBounds {f : Fetched} {t : State} (i h b : Nat) (run : perform f = .next t) :
    perform (f.withBounds i h b) = .next (withBounds i h b t) := by
  cases f with
  | run j s => exact exec_withBounds i h b run
  | still s => cases run; rfl
  | stuck r => cases run

/-- The wait bounds enter no step (00_scope.md R10, 93_implementation_defined.md U16). -/
theorem step_withBounds {s t : State} (i h b : Nat) (run : step s = .next t) :
    step (withBounds i h b s) = .next (withBounds i h b t) := by
  rw [step, fetch_withBounds]
  exact perform_withBounds i h b run

end Sys2Proof.Machine

namespace Sys2Proof.Safety

open Sys2Proof.Machine

/-! ### The channels, the host, the reset -/

/-- The acts of the host's side are answered, reach the channels and the host's run alone, and leave the acts after
them (43_host_uploader.md R226). -/
theorem perform_hUpload_reaches (a : Addr) (image : List Byte) (s : State) :
    ∃ t, exec (.hUpload a image) s = .next t ∧ t = { s with rx := t.rx, tx := t.tx, host := t.host } ∧
      (∃ sent, t.rx = s.rx ++ sent) ∧ ∃ read, s.tx = read ++ t.tx := by
  obtain ⟨rx, tx, host, ht, hrx, htx⟩ := hostStep_reaches a image s
  exact ⟨_, rfl, by rw [ht], by rw [ht]; exact hrx, by rw [ht]; exact htx⟩

/-- Settles O7: a byte sent is appended, a reply dropped is the head, and the host's step and a new upload are one step
of H.UPLOAD. -/
theorem hostReachesOnlyTheChannels : Obligations.HostReachesOnlyTheChannels := by
  intro s a rest he act
  rw [step_act he]
  rcases act with ⟨b, rfl⟩ | rfl | ⟨e, rfl⟩ | ⟨x, im, e, rfl⟩
  · exact ⟨_, rfl, rfl, ⟨[b], rfl⟩, [], rfl⟩
  · exact ⟨_, rfl, rfl, ⟨[], (List.append_nil _).symm⟩, s.tx.take 1, by cases s.tx <;> rfl⟩
  · rw [fetchAct, fetchHost]
    split
    · exact ⟨_, rfl, rfl, ⟨[], (List.append_nil _).symm⟩, [], rfl⟩
    · obtain ⟨t, run, ht, hrx, htx⟩ :=
        perform_hUpload_reaches s.host.start s.host.image (setLink e { s with env := rest })
      exact ⟨t, run, ht, hrx, htx⟩
  · obtain ⟨t, run, ht, hrx, htx⟩ := perform_hUpload_reaches x im
      { s with env := rest, host := { s.host with phase := .idle, linkError := e } }
    exact ⟨t, run, ht, hrx, htx⟩

/-- A latch keeps its byte through a reset that does not cut its own pulse short (70_reset_and_hazards.md R283). -/
theorem cutPulse_ah (s : State) (hold : s.wphase ≠ .ahHold) (release : s.wphase ≠ .ahRelease) :
    (cutPulse s).latches.ah = s.latches.ah := by
  unfold cutPulse
  split <;> simp_all

theorem cutPulse_al (s : State) (hold : s.wphase ≠ .alHold) (release : s.wphase ≠ .alRelease) :
    (cutPulse s).latches.al = s.latches.al := by
  unfold cutPulse
  split <;> simp_all

theorem cutPulse_dl (s : State) (hold : s.wphase ≠ .dHold) (release : s.wphase ≠ .dRelease) :
    (cutPulse s).latches.dl = s.latches.dl := by
  unfold cutPulse
  split <;> simp_all

/-- Settles O43: the reset by its law, and the latches and the RAM by the phase in which it cuts a pulse short. -/
theorem blockResetRestoresTheBlock : Obligations.BlockResetRestoresTheBlock := by
  intro s rest he
  refine ⟨blockReset { s with env := rest }, by rw [step_act he]; rfl, blockReset_eq _,
    cutPulse_ah { s with env := rest }, cutPulse_al { s with env := rest }, cutPulse_dl { s with env := rest },
    fun a kept => ?_⟩
  rcases blockReset_mem { s with env := rest } with same | ⟨inStrobe, written⟩
  · rw [ramAt, ramAt, same]
  · have other : a ≠ latchAddress s.latches := kept.resolve_left fun ⟨noHold, noHigh⟩ => inStrobe.elim noHold noHigh
    rw [ramAt, ramAt, written]
    exact read_write_other s.mem _ fun equal => other (BitVec.eq_of_toNat_eq equal)

/-! ### The RAM -/

/-- Settles O49: a step leaves the RAM or writes one cell. -/
theorem stepKeepsTheRamCanonical : Obligations.StepKeepsTheRamCanonical := by
  intro s t wf h
  rcases step_mem_cases h with same | ⟨-, b, written⟩
  · rwa [same]
  · rw [written]; exact write_wf s.mem _ b wf

/-- Settles O50: where a step writes, it is the latched cell, at the end of a strobe or in a reset inside one. -/
theorem onlyTheStrobeWritesTheRam : Obligations.OnlyTheStrobeWritesTheRam := by
  intro s t h
  rcases step_mem_cases h with same | ⟨place, b, written⟩
  · exact ⟨fun a _ => by rw [ramAt, ramAt, same], fun differs => absurd same differs⟩
  · refine ⟨fun a other => ?_, fun _ => place⟩
    rw [ramAt, ramAt, written]
    exact read_write_other s.mem b fun equal => other (BitVec.eq_of_toNat_eq equal)

/-! ### The trace -/

/-- Settles O51: the bytes sent by what the send points send, the events by what a turn emits; no other act emits, and
the host only takes. -/
theorem onlyTheTwoReplies : Obligations.OnlyTheTwoReplies := by
  rintro s t ⟨sent, traced⟩ h
  cases step_case h with
  | core u turn ht =>
    obtain ⟨_, _, _, _, rfl⟩ := coreTurn_frame turn
    obtain ⟨es, trace, -, replies⟩ := coreResult_emits (core_result ht)
    refine ⟨fun b hb => (coreResult_tx (core_result ht) hb).elim (sent b) id, fun b hb => ?_⟩
    rw [trace] at hb
    exact (List.mem_append.mp hb).elim (traced b) (replies b)
  | reset rest head ht => subst ht; rw [blockReset_eq]; exact ⟨sent, traced⟩
  | outside rest rx tx host ht hrx htx =>
    subst ht
    obtain ⟨read, htx⟩ := htx
    exact ⟨fun b hb => sent b (htx ▸ List.mem_append_right read hb), traced⟩

/-- Settles O52: a turn of the CORE moves the lines as the events that it emits say. -/
theorem linesFollowTheTrace : Obligations.LinesFollowTheTrace := by
  intro s t h noReset follows
  rcases step_noReset h noReset with ⟨u, turn, ht⟩ | ⟨_, _, _, _, rfl⟩
  · obtain ⟨_, _, _, _, rfl⟩ := coreTurn_frame turn
    obtain ⟨es, trace, lines, -⟩ := coreResult_emits ht
    obtain ⟨-, params⟩ := coreResult_time ht
    rw [lines, trace, params, linesOfTrace, List.foldl_append]
    exact congrArg (es.foldl linesAfter) follows
  · exact follows

/-! ### The control point, the events, the time, the session -/

/-- Settles O53: the CORE moves along the table, the reset goes to Idle, and no other act moves. -/
theorem controlPointMoves : Obligations.ControlPointMoves := by
  intro s t h
  cases step_case h with
  | core u turn ht =>
    obtain ⟨_, _, _, _, rfl⟩ := coreTurn_frame turn
    exact (coreResult_moves (core_result ht)).imp id .inl
  | reset rest head ht => exact .inr (.inr ⟨by rw [head]; rfl, by rw [ht]; rfl⟩)
  | outside rest rx tx host ht => exact .inl (by rw [ht])

theorem coreTurn_result {s u t : State} (turn : CoreTurn s u) (h : step s = .next t) : CoreResult u t :=
  core_result (core_case (step_of_coreTurn turn ▸ h))

/-- Settles O54: the order as the pending event is defined, and what a turn of the CORE takes at a wait point and
elsewhere. -/
theorem eventsAreTakenInOrder : Obligations.EventsAreTakenInOrder := by
  refine ⟨fun s => ⟨fun b rest hrx => ?_, fun hrx closed => ?_, fun hrx stands expired => ?_,
    fun hrx stands running => ?_⟩, fun s u t turn h => ?_⟩
  · simp [pendingEvent, hrx]
  · simp [pendingEvent, hrx, closed]
  · simp [pendingEvent, hrx, stands, expired]
  · simp [pendingEvent, hrx, stands, running]
  · have result := coreTurn_result turn h
    refine ⟨coreResult_takes_nothing result, fun wait => ?_⟩
    rcases (coreResult_waits result wait).2 with ⟨none, rx, ports⟩ | ⟨e, pending, rx, ports⟩
    · exact ⟨by rw [rx, rx_nil_of_pendingEvent_none none]; rfl, fun _ => ports⟩
    · exact ⟨rx.trans (takeEvent_rx pending), fun byte => ports.trans (takeEvent_ports pending byte)⟩

/-- Settles O55: the time by what a turn adds to it, and the wait bounds by what no row looks at. -/
theorem timeGrowsAndParametersStay : Obligations.TimeGrowsAndParametersStay := by
  refine ⟨fun s t h => ?_, fun s u t turn wait h => (coreResult_waits (coreTurn_result turn h) wait).1,
    fun s t i h b => step_withBounds i h b, fun s u t turn timely wait pending h => ?_⟩
  · cases step_case h with
    | core u turn ht =>
      obtain ⟨now, params⟩ := coreResult_time (core_result ht)
      obtain ⟨dt, _, _, _, rfl⟩ := coreTurn_frame turn
      exact ⟨(Nat.le_add_right s.now dt).trans now, params⟩
    | reset rest head ht => subst ht; rw [blockReset_eq]; exact ⟨Nat.le_refl _, rfl⟩
    | outside rest rx tx host ht => subst ht; exact ⟨Nat.le_refl _, rfl⟩
  · rw [(coreResult_waits (coreTurn_result turn h) wait).1]
    exact timely pending

/-- Settles O56: no result of the CORE's turn but the report's ends a live session. -/
theorem sessionEndsOnlyInTheReport : Obligations.SessionEndsOnlyInTheReport := by
  intro s t h live ended
  by_contra other
  obtain ⟨noReport, noReset⟩ := not_or.mp other
  rcases step_noReset h noReset with ⟨u, turn, ht⟩ | ⟨_, _, _, _, rfl⟩
  · obtain ⟨_, _, _, _, rfl⟩ := coreTurn_frame turn
    simp [coreResult_sessionStays ht live noReport] at ended
  · simp [live] at ended

end Sys2Proof.Safety
end

section
/-! PROOF. The rows one by one (42_upload_protocol.md, 41_session_controller.md, 43_host_uploader.md): which row a step
runs, what each row does, the session controller's operations from any phase, and the status outputs. -/

namespace Sys2Proof.Machine

open Sys2Proof.Safety

/-! ### The step -/

/-- At a wait point the CORE runs the row that the pending event decodes to (30_encoding.md R98). -/
theorem fetchCore_event {u : State} {e : Event} {i : Instr} (wait : u.cp.isWait = true)
    (pending : pendingEvent u = some e) (dec : decode (.event u.cp u.hdrCnt (eventWord e)) = .ok i) :
    fetchCore u = .run i (takeEvent e (clearPulses u)) := by
  rw [fetchCore_wait wait, fetchEvent]
  simp only [show pendingEvent (clearPulses u) = some e from pending, clearPulses_cp, clearPulses_hdrCnt, dec]

/-- Elsewhere it runs the row that its control word decodes to (30_encoding.md R107). -/
theorem fetchCore_row {u : State} {i : Instr} (busy : u.cp.isWait = false)
    (dec : decode (.control .loop (controlWord u)) = .ok i) : fetchCore u = .run i (clearPulses u) := by
  simp only [fetchCore, busy, Bool.false_eq_true, if_false, fetchControl,
    show controlWord (clearPulses u) = controlWord u from rfl, dec]

end Sys2Proof.Machine

namespace Sys2Proof.Safety

open Sys2Proof.Machine

/-- Settles O6: the CORE's turn by what it fetches at a wait point and elsewhere, the host's by its act. -/
theorem stepRunsTheDecodedRow : Obligations.StepRunsTheDecodedRow := by
  refine ⟨fun s u turn => ?_, fun s linkError rest he running => ?_, fun s start image linkError rest he => ?_⟩
  · rw [step_of_coreTurn turn]
    refine ⟨fun wait none => ?_, fun e i wait pending dec => ?_, fun i busy dec => ?_⟩
    · rw [fetchCore_none wait none]; rfl
    · rw [fetchCore_event wait pending dec]; rfl
    · rw [fetchCore_row busy dec]; rfl
  · rw [step_act he]
    exact congrArg perform (if_neg running)
  · rw [step_act he]; rfl

/-! ### The rows of the protocol -/

/-- Settles O9: the three rows as they stand. -/
theorem idleRowsChangeNothing : Obligations.IdleRowsChangeNothing := fun _ _ => ⟨fun _ _ => rfl, rfl, rfl⟩

/-- Settles O10: the two answers of the transmit channel. -/
theorem ackIsSentWhenAccepted : Obligations.AckIsSentWhenAccepted :=
  fun _ _ => ⟨fun ready => if_pos ready, fun blocked => if_neg (by simp [blocked])⟩

/-- Settles O12: the two rows as they stand. -/
theorem headerTimeoutFails : Obligations.HeaderTimeoutFails := fun _ _ => ⟨rfl, rfl⟩

/-- Settles O14: the row as it stands. -/
theorem streamingTimeoutOnlyWarns : Obligations.StreamingTimeoutOnlyWarns := fun _ _ => rfl

/-- Settles O18: the word, the row, and the last phase of a good write, which does the same in one step. -/
theorem acceptedWriteCounts : Obligations.AcceptedWriteCounts := by
  refine ⟨rfl, fun s _ => ⟨acceptWrite s, rfl, rfl, BitVec.toNat_add _ _⟩, fun s _ _ good => ?_⟩
  simp only [execSeq, exec, execWriteByte, execWrOk, execWrStep, writeResult, good]
  rfl

/-- Settles O19: the row as it stands. -/
theorem faultedWriteFailsTheSession : Obligations.FaultedWriteFailsTheSession := fun _ _ => rfl

/-- Settles O20: the two answers of the transmit channel. -/
theorem confirmIsSentWhenAccepted : Obligations.ConfirmIsSentWhenAccepted :=
  fun _ _ => ⟨fun ready => if_pos ready, fun blocked => if_neg (by simp [blocked])⟩

/-- Settles O21: the record by whether an error is set and a session live. -/
theorem reportEndsTheSession : Obligations.ReportEndsTheSession := by
  refine fun s _ => ⟨returnToIdle s, rfl, rfl, fun done => ?_, fun failed => ?_, rfl, fun live => ?_, fun none => ?_⟩
  · simp [resultOf, sessionFailed, done]
  · simp [resultOf, sessionFailed, failed]
  · simp [resultOf, live, elapsed]
  · simp [resultOf, none]

/-! ### The session controller -/

/-- Settles O26: each phase by running it; driving `trst_n`, `cs_n` or `loe_n` reaches no latch and no cell. -/
theorem sessionPhases : Obligations.SessionPhases :=
  fun _ => ⟨fun _ => ⟨rfl, rfl, rfl, rfl⟩, fun _ => ⟨rfl, rfl, rfl, rfl⟩⟩

/-- Settles O28: the operation from each of its four phases. -/
theorem beginSessionTakesTheBus : Obligations.BeginSessionTakesTheBus := by
  intro s p
  refine ⟨runSPhases (beginSessionFrom p) s, rfl, ?_⟩
  rcases pair_cases p with rfl | rfl | rfl | rfl <;>
    simp [beginSessionFrom, beginTrain, sPhaseStep, sPhaseAct, setLine, hold, emit, latchesAfter, pulseAfter, memAfter,
      nextSPhase, BusLines.drive, guardTime]

/-- Settles O29: the operation from each of its four phases. -/
theorem endSessionGivesTheBusBack : Obligations.EndSessionGivesTheBusBack := by
  intro s p
  refine ⟨runSPhases (endSessionFrom p) s, rfl, ?_⟩
  rcases pair_cases p with rfl | rfl | rfl | rfl <;>
    simp [endSessionFrom, endTrain, sPhaseStep, sPhaseAct, setLine, hold, emit, latchesAfter, pulseAfter, memAfter,
      nextSPhase, BusLines.drive, guardTime]

/-! ### The host -/

section
variable {s : State} (a : Addr) (image : List Byte) (sound : s.host.linkError = false)
include sound

/-! With no error of the transport, a step of the run is what its phase says (43_host_uploader.md R221). -/

theorem hostStep_idle (hp : s.host.phase = .idle) : hostStep a image s = hostStart a image s := by
  simp only [hostStep, sound, hp, Bool.false_eq_true, if_false]

theorem hostStep_readAck (hp : s.host.phase = .readAck) :
    hostStep a image s = hostReceive ackByte .unexpectedAck (hostAt .sendLo) s := by
  simp only [hostStep, sound, hp, Bool.false_eq_true, if_false]

theorem hostStep_sendLo (hp : s.host.phase = .sendLo) :
    hostStep a image s = hostAt .sendHi (hostSend (addrLow a) s) := by
  simp only [hostStep, sound, hp, Bool.false_eq_true, if_false]

theorem hostStep_sendHi (hp : s.host.phase = .sendHi) :
    hostStep a image s = hostAt .sendImage (hostSend (addrHigh a) s) := by
  simp only [hostStep, sound, hp, Bool.false_eq_true, if_false]

theorem hostStep_byte (hp : s.host.phase = .sendImage) {b : Byte} {rest : List Byte} (left : s.host.left = b :: rest) :
    hostStep a image s = hostSend b { s with host := { s.host with left := rest } } := by
  simp only [hostStep, sound, hp, Bool.false_eq_true, if_false, hostSendImage, left]

theorem hostStep_endMarker (hp : s.host.phase = .sendImage) (left : s.host.left = []) :
    hostStep a image s = hostAt .readConfirm (hostSend endMarker s) := by
  simp only [hostStep, sound, hp, Bool.false_eq_true, if_false, hostSendImage, left]

theorem hostStep_readConfirm (hp : s.host.phase = .readConfirm) :
    hostStep a image s = hostReceive confirmByte .unexpectedConfirm (hostEnd (.ok image.length)) s := by
  simp only [hostStep, sound, hp, Bool.false_eq_true, if_false]

end

theorem hostReceive_none {s : State} (want : Byte) (e : UploadError) (good : State → State) (none : s.tx = []) :
    hostReceive want e good s = s := by
  simp only [hostReceive, none]

theorem hostReceive_some {s : State} (want : Byte) (e : UploadError) (good : State → State) {r : Byte}
    {rest : List Byte}
    (reply : s.tx = r :: rest) : hostReceive want e good s =
      if r = want then good { s with tx := rest } else hostEnd (.err e) { s with tx := rest } := by
  simp only [hostReceive, reply]

/-- Settles O41: the steps of the run, phase by phase, and each reply by whether it is the one awaited. -/
theorem hostRunsTheUploadProtocol : Obligations.HostRunsTheUploadProtocol := by
  refine ⟨fun s a image fails => congrArg _ (if_pos fails), fun s a image sound => ⟨fun hp => ?_, fun hp none => ?_,
    fun r rest hp reply => ?_, fun hp => ?_, fun hp => ?_, fun b rest hp left => ?_, fun hp left => ?_,
    fun hp none => ?_,
    fun r rest hp reply => ?_⟩⟩ <;> rw [exec, execHUpload]
  · rw [hostStep_idle a image sound hp]; rfl
  · rw [hostStep_readAck a image sound hp, hostReceive_none _ _ _ none]
  · rw [hostStep_readAck a image sound hp, hostReceive_some _ _ _ reply]
    by_cases good : r = ackByte
    · rw [if_pos good, if_pos (show r = 0x41 from good)]; rfl
    · rw [if_neg good, if_neg (show r ≠ 0x41 from good)]; rfl
  · rw [hostStep_sendLo a image sound hp]; rfl
  · rw [hostStep_sendHi a image sound hp]; rfl
  · rw [hostStep_byte a image sound hp left]; rfl
  · rw [hostStep_endMarker a image sound hp left]; rfl
  · rw [hostStep_readConfirm a image sound hp, hostReceive_none _ _ _ none]
  · rw [hostStep_readConfirm a image sound hp, hostReceive_some _ _ _ reply]
    by_cases good : r = confirmByte
    · rw [if_pos good, if_pos (show r = 0x4B from good)]; rfl
    · rw [if_neg good, if_neg (show r ≠ 0x4B from good)]; rfl

/-- The state in which the host takes its step, the transport sound and `rest` the acts left. -/
def hostTurn (rest : List EnvAct) (s : State) : State := setLink false { s with env := rest }

/-- `n` acts of the host with a sound transport, and then the acts left. -/
abbrev hostActs (n : Nat) (rest : List EnvAct) : List EnvAct := List.replicate n (EnvAct.host false) ++ rest

theorem step_host {s : State} {n : Nat} {rest : List EnvAct} (he : s.env = hostActs (n + 1) rest)
    (running : s.host.phase ≠ .idle) :
    step s = .next (hostStep s.host.start s.host.image (hostTurn (hostActs n rest) s)) := by
  rw [step_act he]
  exact congrArg perform (if_neg running)

/-- From `s` to `t` the host has put `bytes` into the receive channel and now waits for the confirm; the block is where
it was. -/
def FrameSent (bytes : List Byte) (rest : List EnvAct) (s t : State) : Prop :=
  t.rx = s.rx ++ bytes ∧ t.host.phase = .readConfirm ∧ t.cp = s.cp ∧ t.mem = s.mem ∧ t.env = rest

theorem FrameSent.cons {b : Byte} {bytes : List Byte} {rest : List EnvAct} {s v t : State}
    (h : FrameSent bytes rest v t) (rx : v.rx = s.rx ++ [b]) (cp : v.cp = s.cp) (mem : v.mem = s.mem) :
    FrameSent (b :: bytes) rest s t := by
  obtain ⟨rx', hp, cp', mem', env⟩ := h
  exact ⟨by rw [rx', rx, List.append_assoc]; rfl, hp, cp'.trans cp, mem'.trans mem, env⟩

/-- The bytes of the image that are left, one act each, and then the end marker (43_host_uploader.md R221). -/
theorem after_sendImage (left : List Byte) {s : State} {rest : List EnvAct} (hp : s.host.phase = .sendImage)
    (hl : s.host.left = left) (he : s.env = hostActs (left.length + 1) rest) :
    ∃ t, after (left.length + 1) s = .next t ∧ FrameSent (left ++ [0x45]) rest s t := by
  induction left generalizing s with
  | nil =>
    have turn := step_host (n := 0) he (by simp [hp])
    rw [hostStep_endMarker (s := hostTurn (hostActs 0 rest) s) _ _ rfl hp hl] at turn
    exact ⟨_, after_succ turn, rfl, rfl, rfl, rfl, rfl⟩
  | cons b left ih =>
    let v := hostTurn (hostActs (left.length + 1) rest) s
    have turn := step_host (n := left.length + 1) he (by simp [hp])
    rw [hostStep_byte (s := v) _ _ rfl hp hl] at turn
    obtain ⟨t, run, frame⟩ := ih (s := hostSend b { v with host := { v.host with left := left } }) hp rfl rfl
    exact ⟨t, (after_succ turn).trans run, frame.cons rfl rfl rfl⟩

/-- The high byte of the start address, and then the image. -/
theorem after_sendHi {s : State} {rest : List EnvAct} (hp : s.host.phase = .sendHi)
    (hl : s.host.left = s.host.image) (he : s.env = hostActs (s.host.image.length + 2) rest) :
    ∃ t, after (s.host.image.length + 2) s = .next t ∧
      FrameSent (addrHigh s.host.start :: (s.host.image ++ [0x45])) rest s t := by
  let v := hostTurn (hostActs (s.host.image.length + 1) rest) s
  have turn := step_host he (by simp [hp])
  rw [hostStep_sendHi (s := v) _ _ rfl hp] at turn
  obtain ⟨t, run, frame⟩ := after_sendImage s.host.image (s := hostAt .sendImage (hostSend (addrHigh s.host.start) v))
    rfl hl rfl
  exact ⟨t, (after_succ turn).trans run, frame.cons rfl rfl rfl⟩

/-- Settles O42: the low byte of the start address, and then the high byte and the image. -/
theorem hostSendsTheFrame : Obligations.HostSendsTheFrame := by
  intro s rest hp hl he
  let v := hostTurn (hostActs (s.host.image.length + 2) rest) s
  have turn := step_host he (by simp [hp])
  rw [hostStep_sendLo (s := v) _ _ rfl hp] at turn
  obtain ⟨t, run, frame⟩ := after_sendHi (s := hostAt .sendHi (hostSend (addrLow s.host.start) v)) rfl hl rfl
  exact ⟨t, (after_succ turn).trans run, frame.cons rfl rfl rfl⟩

/-! ### Reset values and status -/

/-- Settles O44: the values as they stand. -/
theorem resetStateOfTheBlock : Obligations.ResetStateOfTheBlock := by
  refine ⟨rfl, rfl, rfl, rfl, rfl, rfl, rfl, rfl, rfl, rfl, rfl, rfl, rfl, rfl, rfl, rfl⟩

/-- Settles O60: control point by control point. -/
theorem statusFollowsTheControlPoint : Obligations.StatusFollowsTheControlPoint := by
  intro s
  cases hc : s.cp <;> simp [fsm, rxReady, txData, txValid, hc, ControlPoint.isWait, ackByte, confirmByte]
  all_goals split <;> simp_all

end Sys2Proof.Safety
end

section
/-! PROOF. The writes of the Bus Sequencer (40_bus_sequencer.md): the operations as their loop steps, the strobe and the
cell that it writes, the whole write, and the loop step by step. -/

namespace Sys2Proof.Machine

open Sys2Proof.Safety

/-! ### Loop steps and operations -/

/-- Loop steps short of the last are the phases that they name, one after the other (log 10). -/
theorem execSeq_wrSteps {ps : List WPhase} (short : .weHigh ∉ ps) (s : State) :
    execSeq (ps.map fun p => .wrStep p.code) s = .next (runWPhases ps s) := by
  induction ps generalizing s with
  | nil => rfl
  | cons p ps ih =>
    obtain ⟨first, others⟩ := not_or.mp (mt List.mem_cons.mpr short)
    rw [List.map_cons, execSeq_cons (exec_wrStep s (Ne.symm first)), ih others, runWPhases_cons]

theorem latchAhFrom_steps : ∀ p : BitVec 2, .weHigh ∉ latchAhFrom p ∧
    (writeStepsFrom p.toNat).take (4 - p.toNat) = (latchAhFrom p).map fun q => .wrStep q.code := by decide

theorem latchAlFrom_steps : ∀ p : BitVec 2, .weHigh ∉ latchAlFrom p ∧
    (writeStepsFrom (4 + p.toNat)).take (4 - p.toNat) = (latchAlFrom p).map fun q => .wrStep q.code := by decide

theorem latchDFrom_steps : ∀ p : BitVec 2, .weHigh ∉ latchDFrom p ∧
    (writeStepsFrom (8 + p.toNat)).take (4 - p.toNat) = (latchDFrom p).map fun q => .wrStep q.code := by decide

/-! ### One phase -/

theorem wPhaseEvents_single {p : WPhase} (busy : p ≠ .wIdle) (s : State) :
    ∃ e, (writeTrain s.params.leActive s.wr.addr s.wr.data)[p.code.toNat]? = some e ∧ wPhaseEvents p s = [e] := by
  cases p
  case wIdle => exact absurd rfl busy
  all_goals exact ⟨_, rfl, rfl⟩

/-- A phase moves the lines, the trace, the latches, the RAM, the time, `wphase` and the model's `pulseOk` only. -/
theorem wPhaseStep_frame (p : WPhase) (s : State) :
    wPhaseStep p s = { s with
      lines := (wPhaseStep p s).lines
      trace := (wPhaseStep p s).trace
      latches := (wPhaseStep p s).latches
      pulseOk := (wPhaseStep p s).pulseOk
      mem := (wPhaseStep p s).mem
      now := (wPhaseStep p s).now
      wphase := (wPhaseStep p s).wphase } := by
  cases p <;> rfl

theorem wPhaseStep_now_eq (p : WPhase) (s : State) : (wPhaseStep p s).now = s.now +
    (if p.code = 2 ∨ p.code = 6 ∨ p.code = 10 then s.params.tLatch else if p.code = 13 then s.params.tWe else 0) := by
  cases p <;> rfl

/-- The latches after a phase: each captures the bus where its own enable line falls from asserted (20_memory.md
R68). -/
theorem wPhaseStep_latches_eq (p : WPhase) (s : State) :
    (wPhaseStep p s).latches.ah =
      (if p.code = 3 ∧ s.lines.leAh = s.params.leActive then s.lines.bus else s.latches.ah) ∧
    (wPhaseStep p s).latches.al =
      (if p.code = 7 ∧ s.lines.leAl = s.params.leActive then s.lines.bus else s.latches.al) ∧
    (wPhaseStep p s).latches.dl =
      (if p.code = 11 ∧ s.lines.leD = s.params.leActive then s.lines.bus else s.latches.dl) := by
  cases p <;>
    simp [wPhaseStep, wPhaseAct, latchesAfter, captured, releases, assertLevel, releaseLevel, BusLines.level,
      WPhase.code]

theorem nextWPhase_code : ∀ {p : WPhase}, p ≠ .wIdle → (nextWPhase p).code = p.code + 1 := by
  intro p busy
  cases p
  case wIdle => exact absurd rfl busy
  all_goals rfl

/-! ### The strobe -/

/-- The strobe from any of its phases is what comes before the last, and the last, which alone writes. -/
theorem wePulseFrom_eq : ∀ p : BitVec 2, p ≠ 3 →
    wePulseFrom p = [WPhase.weLow, .weHold].drop p.toNat ++ [.weHigh] := by decide

/-- Before the last phase the strobe leaves the RAM, the latches and the selection of the RAM. -/
theorem runWPhases_beforeStrobe (n : Nat) (s : State) :
    (runWPhases ([WPhase.weLow, .weHold].drop n) s).mem = s.mem ∧
    (runWPhases ([WPhase.weLow, .weHold].drop n) s).latches = s.latches ∧
    (runWPhases ([WPhase.weLow, .weHold].drop n) s).lines.csN = s.lines.csN ∧
    (runWPhases ([WPhase.weLow, .weHold].drop n) s).lines.loeN = s.lines.loeN := by
  rcases n with _ | _ | n
  · exact ⟨by simp [wPhaseStep_mem], rfl, rfl, rfl⟩
  · exact ⟨rfl, rfl, rfl, rfl⟩
  · simp

/-- The strobe writes at its last phase, in the cell that the latches address from the start, and only with the RAM
selected (20_memory.md R69). -/
theorem wePulse_writes {p : BitVec 2} (inStrobe : p ≠ 3) (s : State) :
    (∀ a, a ≠ latchAddress s.latches → ramAt (runWPhases (wePulseFrom p) s) a = ramAt s a) ∧
    (s.lines.csN ≠ 0 ∨ s.lines.loeN ≠ 0 → (runWPhases (wePulseFrom p) s).mem = s.mem) := by
  rw [wePulseFrom_eq p inStrobe, runWPhases_append]
  obtain ⟨mem, latches, cs, loe⟩ := runWPhases_beforeStrobe p.toNat s
  refine ⟨fun a other => ?_, fun unselected => ?_⟩
  · exact (ramAt_weHigh (latches ▸ other)).trans (by rw [ramAt, ramAt, mem])
  · rw [← mem]
    refine if_neg fun ⟨_, _, _, cs0, loe0⟩ => ?_
    exact unselected.elim (absurd (cs ▸ cs0)) (absurd (loe ▸ loe0))

/-! ### The loop's run of a write -/

@[simp] theorem runWPhases_ports (ps : List WPhase) (s : State) : (runWPhases ps s).ports = s.ports := by
  induction ps generalizing s with
  | nil => rfl
  | cons p ps ih => rw [runWPhases_cons, ih, wPhaseStep_ports]

/-- Where a write returns to after its last phase: to Streaming, or into failure (40_bus_sequencer.md R132). -/
def returnOfWrite (s : State) : State :=
  if s.ports.busFault then rejectWrite { s with wrRet := .busError } else acceptWrite { s with wrRet := .ok }

theorem returnOfWrite_ok {s : State} (good : s.ports.busFault = false) :
    returnOfWrite s = acceptWrite { s with wrRet := .ok } := by simp [returnOfWrite, good]

theorem returnOfWrite_fault {s : State} (fault : s.ports.busFault = true) :
    returnOfWrite s = rejectWrite { s with wrRet := .busError } := by simp [returnOfWrite, fault]

/-- The loop's last write step. -/
theorem exec_wrStep_last (s : State) :
    exec (.wrStep 14) s = .next (returnOfWrite (wPhaseStep .weHigh s)) := by
  change (match writeResult s with
    | .ok => _
    | .busError => _) = _
  simp only [writeResult, returnOfWrite, wPhaseStep_ports]
  cases s.ports.busFault <;> rfl

theorem writeByteFrom_length (p : WPhase) : (writeByteFrom p.code).length = 15 - p.code.toNat := by cases p <;> rfl

theorem clearPulses_wPhaseStep (p : WPhase) (s : State) :
    clearPulses (wPhaseStep p (clearPulses s)) = wPhaseStep p (clearPulses s) := by cases p <;> rfl

/-- Undisturbed, the loop runs the phases of a write from any one on, and then its return (log 10). -/
theorem after_writePhases {s : State} (env : s.env = []) (hcp : s.cp = .write) (busy : s.wphase ≠ .wIdle) :
    after (15 - s.wphase.code.toNat) s =
      .next (returnOfWrite (runWPhases (writeByteFrom s.wphase.code) (clearPulses s))) := by
  rw [← writeByteFrom_length]
  generalize hps : writeByteFrom s.wphase.code = ps
  induction ps generalizing s with
  | nil => rw [writeByteFrom_step _ busy] at hps; cases hps
  | cons p ps ih =>
    rw [writeByteFrom_step _ busy] at hps
    obtain ⟨rfl, rest⟩ := List.cons.inj hps
    by_cases last : s.wphase = .weHigh
    · rw [last] at rest
      subst rest
      have step_last : step s = .next (returnOfWrite (wPhaseStep .weHigh (clearPulses s))) := by
        rw [step_core env, fetchCore_write hcp busy, last]
        exact exec_wrStep_last (clearPulses s)
      rw [last]
      exact after_succ step_last
    · have next := step_inWrite (.inl ⟨env, rfl⟩) hcp busy last
      have going : nextWPhase s.wphase ≠ .wIdle := by cases hp : s.wphase <;> simp_all [nextWPhase]
      rw [List.length_cons, after_succ next,
        ih (by simpa using env) (by simpa using hcp) (by simpa using going) (by simpa using rest),
        clearPulses_wPhaseStep]
      rfl

end Sys2Proof.Machine

namespace Sys2Proof.Safety

open Sys2Proof.Machine

/-- Settles O33: the three lists of phases are those of the loop steps, and none of them holds the last. -/
theorem latchOperationsAreTheirSteps : Obligations.LatchOperationsAreTheirSteps := by
  intro s p
  obtain ⟨ahShort, ah⟩ := latchAhFrom_steps p
  obtain ⟨alShort, al⟩ := latchAlFrom_steps p
  obtain ⟨dShort, d⟩ := latchDFrom_steps p
  rw [ah, al, d, execSeq_wrSteps ahShort, execSeq_wrSteps alShort, execSeq_wrSteps dShort]
  exact ⟨rfl, rfl, rfl⟩

/-- Settles O37: the event by its place in the train, and each field that a phase moves by its law. -/
theorem writeStepFollowsTheTrain : Obligations.WriteStepFollowsTheTrain := by
  rintro s _ - rfl last idle
  have busy : s.wphase ≠ .wIdle := fun h => idle ((wPhase_code_idle _).mpr h)
  have short : s.wphase ≠ .weHigh := fun h => last (by rw [h]; rfl)
  obtain ⟨e, event, single⟩ := wPhaseEvents_single busy s
  refine ⟨wPhaseStep s.wphase s, e, exec_wrStep s short, event, ?_, ?_, wPhaseStep_latches_eq s.wphase s⟩
  · rw [wPhaseStep_frame, wPhaseStep_lines, wPhaseStep_trace, wPhaseStep_mem short, wPhaseStep_now_eq, single]
    rfl
  · rw [wPhaseStep_wphase, nextWPhase_code busy]

/-- Settles O34: the strobe's events and frame phase by phase, and the cell by its last phase. -/
theorem strobeWritesTheLatchedCell : Obligations.StrobeWritesTheLatchedCell := by
  intro s p inStrobe
  obtain ⟨others, unselected⟩ := wePulse_writes inStrobe s
  refine ⟨runWPhases (wePulseFrom p) s, rfl, ?_, others, unselected, ?_⟩
  · rcases pair_cases p with rfl | rfl | rfl | rfl
    · simp [wePulseFrom, wPhaseStep, wPhaseAct, setLine, hold, emit, latchesAfter, nextWPhase, BusLines.drive,
        guardTime]
    · simp [wePulseFrom, wPhaseStep, wPhaseAct, setLine, hold, emit, latchesAfter, nextWPhase, BusLines.drive,
        guardTime]
    · rfl
    · exact absurd rfl inStrobe
  · rintro rfl rest cs loe
    rw [ramAt, runWPhases_wePulse s rest, strobed, if_pos ⟨cs, loe⟩]
    exact read_write_same ..

/-- Settles O35: WRITE_BYTE by its law, and the cell by one write to the RAM. -/
theorem writeByteWritesOneCell : Obligations.WriteByteWritesOneCell := by
  intro s rest
  have time : s.now + s.params.tLatch + s.params.tLatch + s.params.tLatch + s.params.tWe =
      s.now + (3 * s.params.tLatch + s.params.tWe) := by omega
  have law := runWPhases_write s rest
  rw [time] at law
  refine ⟨_, rfl, ?_, fun cs loe a => ?_, fun unselected => ?_⟩
  · rw [law]; rfl
  · rw [ramAt, law]
    change Memory.read (if s.lines.csN = 0 ∧ s.lines.loeN = 0 then _ else _) a.toNat = _
    rw [if_pos ⟨cs, loe⟩, read_write, ramAt]
    simp only [BitVec.toNat_inj]
  · rw [law]
    exact if_neg fun ⟨cs, loe⟩ => unselected.elim (absurd cs) (absurd loe)

/-- Settles O38: the last phase, and its two returns by the fault input. -/
theorem lastWriteStepReturns : Obligations.LastWriteStepReturns := by
  intro s _ _
  have mem : (returnOfWrite (wPhaseStep .weHigh s)).mem = memAfter .weN 1 s := by
    simp only [returnOfWrite]
    split <;> rfl
  refine ⟨_, exec_wrStep_last s, fun good => ?_, fun fault => ?_, fun a other => ?_, fun low held cs loe => ?_,
    fun unselected => ?_⟩
  · rw [returnOfWrite_ok (by simpa using good)]; rfl
  · rw [returnOfWrite_fault (by simpa using fault)]; rfl
  · rw [ramAt, mem]
    exact ramAt_weHigh other
  · rw [ramAt, mem, memAfter, if_pos ⟨rfl, low, held, cs, loe⟩]
    exact read_write_same ..
  · rw [mem]
    refine if_neg fun ⟨_, _, held, cs, loe⟩ => ?_
    rcases unselected with broken | noCs | noLoe
    · simp [broken] at held
    · exact noCs cs
    · exact noLoe loe

/-- Settles O39: the loop's run of the phases, and the operation with its return, both as the same run and return. -/
theorem smallStepsAreTheAtomicWrite : Obligations.SmallStepsAreTheAtomicWrite := by
  rintro s _ env hcp idle rfl
  have busy : s.wphase ≠ .wIdle := fun h => idle ((wPhase_code_idle _).mpr h)
  rw [after_writePhases env hcp busy]
  cases fault : s.ports.busFault
  · rw [returnOfWrite_ok (by simpa using fault)]
    simp only [execSeq, exec, execWriteByte, writeResult, clearPulses_ports, fault]; rfl
  · rw [returnOfWrite_fault (by simpa using fault)]
    simp only [execSeq, exec, execWriteByte, writeResult, clearPulses_ports, fault]; rfl

end Sys2Proof.Safety
end

section
/-! PROOF. Whole writes and whole sessions (42_upload_protocol.md, section 8): a failed header, one data byte, and an
upload, each as a run of the loop in which nothing else happens; and where an image lands. -/

namespace Sys2Proof.Machine

open Sys2Proof.Safety

/-! ### Runs from consistent states -/

theorem after_consistent {n : Nat} {s t : State} (c : Consistent s) (run : after n s = .next t) : Consistent t := by
  induction n generalizing s with
  | zero => cases run; exact c
  | succ n ih =>
    obtain ⟨u, next⟩ := consistentStatesStep s c
    rw [after_succ next] at run
    exact ih (stepKeepsConsistency s u c next) run

/-! ### The start marker -/

theorem step_startMarker {s : State} (env : s.env = []) (hcp : s.cp = .idleWait)
    (taken : s.rx.head? = some startMarker) :
    step s = .next { takeEvent (.byte startMarker) (clearPulses s) with cp := .ackTx } :=
  step_idle env hcp (pendingEvent_byte.mpr taken)

theorem step_ack {s : State} (env : s.env = []) (hcp : s.cp = .ackTx) (ready : s.ports.txReady = true) :
    step s = .next (loadTimer { sendTx ackByte (clearPulses s) with hdrCnt := 0, cp := .hdrWait }) := by
  rw [step_core env, fetchCore_ack hcp]
  exact if_pos ready

/-! ### The header -/

theorem step_hdr {s : State} {e : Event} (env : s.env = []) (hcp : s.cp = .hdrWait)
    (pending : pendingEvent s = some e) :
    step s = exec (hdrRow s.hdrCnt e) (takeEvent e (clearPulses s)) := by
  rw [step_core env, fetchCore_hdr hcp pending]; rfl

theorem step_hdrLo {s : State} {b : Byte} (env : s.env = []) (hcp : s.cp = .hdrWait) (first : s.hdrCnt = 0)
    (taken : s.rx.head? = some b) :
    step s = .next { takeEvent (.byte b) (clearPulses s) with hdrLo := b, hdrCnt := 1 } := by
  rw [step_hdr env hcp (pendingEvent_byte.mpr taken), hdrRow, if_pos first]; rfl

theorem step_hdrHi {s : State} {b : Byte} (env : s.env = []) (hcp : s.cp = .hdrWait) (second : s.hdrCnt ≠ 0)
    (taken : s.rx.head? = some b) :
    step s = .next { takeEvent (.byte b) (clearPulses s) with
      sess := { s.sess with startAddress := headerAddress b s.hdrLo }
      hdrCnt := 0
      sphase := .bReset
      cp := .beginRun } := by
  rw [step_hdr env hcp (pendingEvent_byte.mpr taken), hdrRow, if_neg second]; rfl

/-- Where the session lines rest, driving them to rest moves none. -/
theorem sessionLines_atRest {s : State} (rest : (s.lines.trstN, s.lines.csN, s.lines.loeN) = (1, 1, 1)) :
    { s.lines with loeN := 1, csN := 1, trstN := 1 } = s.lines := by
  cases h : s.lines
  simp_all

/-! ### One data byte -/

/-- Streaming with a data byte taken and its write requested (42_upload_protocol.md R186). -/
def writeRequested (b : Byte) (s : State) : State :=
  { takeEvent (.byte b) (clearPulses s) with
    wr := { addr := s.sess.cursor, data := b }, wphase := .ahPut, cp := .write }

/-- A data byte taken in Streaming and its write, undisturbed: sixteen steps in full, the time apart. -/
theorem after_dataByte {s : State} {b : Byte} (env : s.env = []) (noFault : s.ports.busFault = false)
    (hcp : s.cp = .strWait) (taken : s.rx.head? = some b) (data : b ≠ endMarker) (strobe : s.lines.weN = 1) :
    ∃ now, after 16 s = .next { s with
      cp := .strWait
      rx := s.rx.tail
      warnTimeout := false
      resValid := false
      wr := { addr := s.sess.cursor, data := b }
      lines := { s.lines with bus := b, leAh := releaseLevel s, leAl := releaseLevel s, leD := releaseLevel s }
      latches := { ah := addrHigh s.sess.cursor, al := addrLow s.sess.cursor, dl := b }
      trace := s.trace ++ writeTrain s.params.leActive s.sess.cursor b
      now := now
      pulseOk := s.lines.csN == 0 && s.lines.loeN == 0
      mem := if s.lines.csN = 0 ∧ s.lines.loeN = 0 then Memory.write s.mem s.sess.cursor.toNat b else s.mem
      wphase := .wIdle
      wrRet := .ok
      sess := { s.sess with cursor := s.sess.cursor + 1, bytesWritten := s.sess.bytesWritten + 1 }
      timer := { loadedAt := now, expired := false } } := by
  have first : step s = .next (writeRequested b s) := by
    rw [step_str env hcp (pendingEvent_byte.mpr taken), strRow, if_neg data]; rfl
  have write : after 15 (writeRequested b s) = .next (acceptWrite
      { runWPhases (writeByteFrom 0) (clearPulses (writeRequested b s)) with wrRet := .ok }) := by
    have run := after_writePhases (s := writeRequested b s) env rfl nofun
    rwa [returnOfWrite_ok (by rw [runWPhases_ports]; exact noFault)] at run
  rw [runWPhases_write (clearPulses (writeRequested b s)) strobe] at write
  exact ⟨_, (after_succ first).trans write⟩

/-! ### The start and the end of an upload -/

/-- From Idle to Streaming, undisturbed: eight steps in full. -/
theorem after_uploadStart {s : State} {a : Addr} {rest : List Byte} (env : s.env = [])
    (ready : s.ports.txReady = true) (hcp : s.cp = .idleWait)
    (hrx : s.rx = 0x55 :: a.extractLsb' 0 8 :: a.extractLsb' 8 8 :: rest) :
    after 8 s = .next { s with
      cp := .strWait
      rx := rest
      tx := s.tx ++ [0x41]
      trace := s.trace ++ [.tx 0x41] ++ beginTrain
      hdrCnt := 0
      hdrLo := a.extractLsb' 0 8
      lines := { s.lines with trstN := 0, csN := 0, loeN := 0 }
      sphase := .sIdle
      sess := {
        valid := true, startAddress := a, cursor := a, bytesWritten := 0
        startedAt := stamp (s.now + s.params.tSettle) }
      now := s.now + s.params.tSettle
      timer := { loadedAt := s.now + s.params.tSettle, expired := false }
      warnTimeout := false
      resValid := false } := by
  obtain ⟨start, lo, hi, left⟩ : s.rx.head? = some startMarker ∧ s.rx.tail.head? = some (a.extractLsb' 0 8) ∧
      s.rx.tail.tail.head? = some (a.extractLsb' 8 8) ∧ s.rx.tail.tail.tail = rest := by
    rw [hrx]; exact ⟨rfl, rfl, rfl, rfl⟩
  rw [after_succ (step_startMarker env hcp start), after_succ (step_ack (by exact env) rfl (by exact ready)),
    after_succ (step_hdrLo (by exact env) rfl rfl (by exact lo)),
    after_succ (step_hdrHi (by exact env) rfl (show (1 : BitVec 1) ≠ 0 by decide) (by exact hi)),
    after_beginRun (by exact env) rfl rfl, runSPhases_begin, ← left]
  simp only [headerAddress_halves]
  rfl

/-- From the end marker to the report and Idle, undisturbed: seven steps in full. -/
theorem after_endMarker {s : State} (env : s.env = []) (ready : s.ports.txReady = true) (hcp : s.cp = .strWait)
    (taken : s.rx.head? = some endMarker) :
    after 7 s = .next { s with
      cp := .idleWait
      rx := s.rx.tail
      tx := s.tx ++ [0x4B]
      trace := s.trace ++ [.tx 0x4B] ++ endTrain ++ [.result (resultOf { s with tEnd := stamp s.now })]
      lines := { s.lines with loeN := 1, csN := 1, trstN := 1 }
      sphase := .sIdle
      tEnd := stamp s.now
      res := resultOf { s with tEnd := stamp s.now }
      sess := Session.cleared
      err := .none
      pulseOk := false
      now := s.now + s.params.tSettle
      timer := { loadedAt := s.now + s.params.tSettle, expired := false }
      warnTimeout := false
      resValid := true } := by
  have first : step s = .next { takeEvent (.byte endMarker) (clearPulses s) with cp := .confirmTx } :=
    step_str env hcp (pendingEvent_byte.mpr taken)
  have second := step_confirm (s := { takeEvent (.byte endMarker) (clearPulses s) with cp := .confirmTx }) env rfl ready
  exact (after_succ first).trans ((after_succ second).trans (after_endRun_report env rfl rfl))

end Sys2Proof.Machine

namespace Sys2Proof.Safety

open Sys2Proof.Machine

/-- Settles O13: HDR.TMO, the clean-up and the report with no session live and the lines at rest; then IDLE.START. -/
theorem truncatedHeaderRecovers : Obligations.TruncatedHeaderRecovers := by
  intro s c env hcp pending
  have noSession : s.sess.valid = false := by rw [c.flag, hcp]; rfl
  have rest : (s.lines.trstN, s.lines.csN, s.lines.loeN) = (1, 1, 1) := by rw [c.sessionLines, hcp]; rfl
  have failed : step s = .next (raiseFailed .truncatedHeader (takeEvent .timeout (clearPulses s))) :=
    step_hdr env hcp pending
  refine ⟨_, (after_succ failed).trans (after_endRun_report env rfl rfl), rfl, sessionLines_atRest rest, rfl, rfl, rfl,
    ?_, rfl, ?_⟩
  · simp [resultOf, sessionFailed, noSession]
  · exact ⟨_, step_startMarker env rfl rfl, rfl⟩

/-- In Streaming the target is held and the RAM selected, and no strobe is out. -/
theorem Consistent.streaming {s : State} (c : Consistent s) (hcp : s.cp = .strWait) :
    s.lines.csN = 0 ∧ s.lines.loeN = 0 ∧ s.wphase = .wIdle := by
  obtain ⟨control, -, -, lines, -⟩ := c
  simp_all [SessionLinesRight, sessionLevels, ControlConsistent]

/-- Settles O57: the sixteen steps in full, with the RAM selected and the strobes at rest. -/
theorem dataByteLandsAtTheCursor : Obligations.DataByteLandsAtTheCursor := by
  intro s b rest c quiet hcp hrx data
  obtain ⟨cs, loe, idle⟩ := c.streaming hcp
  obtain ⟨leAh, leAl, leD, strobe⟩ := c.strobes.atRest idle
  obtain ⟨now, run⟩ := after_dataByte quiet.coreTurn quiet.noFault hcp (by rw [hrx]; rfl) data strobe
  rw [if_pos ⟨cs, loe⟩] at run
  refine ⟨_, run, after_consistent c run, ⟨quiet.coreTurn, quiet.txReady, quiet.noFault, quiet.notClosed⟩, rfl,
    by rw [hrx]; rfl, rfl, rfl, rfl, by simp [leAh, leAl, leD], rfl, rfl, rfl⟩

/-! ### A whole upload -/

/-- What a run of data bytes taken and written leaves behind: the bytes gone from the channel, written in order from the
cursor on, counted, and their trains emitted (42_upload_protocol.md R202, R207). -/
structure DataTaken (ds : List Byte) (s t : State) : Prop where
  rx : s.rx = ds ++ t.rx
  tx : t.tx = s.tx
  mem : t.mem = writeImage s.mem s.sess.cursor ds
  start : t.sess.startAddress = s.sess.startAddress
  count : t.sess.bytesWritten = s.sess.bytesWritten + BitVec.ofNat 32 ds.length
  trace : t.trace = s.trace ++ imageTrain s.params.leActive s.sess.cursor ds
  lines : t.lines = { s.lines with bus := t.lines.bus }
  params : t.params = s.params

/-- Undisturbed, Streaming takes and writes data bytes, sixteen steps each. -/
theorem after_image (ds rest : List Byte) {s : State} (c : Consistent s) (quiet : Quiet s) (hcp : s.cp = .strWait)
    (hrx : s.rx = ds ++ rest) (data : ∀ b ∈ ds, b ≠ 0x45) :
    ∃ t, after (16 * ds.length) s = .next t ∧ Consistent t ∧ Quiet t ∧ t.cp = .strWait ∧ t.rx = rest ∧
      DataTaken ds s t := by
  induction ds generalizing s with
  | nil =>
    exact ⟨s, rfl, c, quiet, hcp, hrx, ⟨rfl, rfl, rfl, rfl, by simp, by simp [imageTrain], rfl, rfl⟩⟩
  | cons d ds ih =>
    obtain ⟨first, others⟩ := List.forall_mem_cons.mp data
    obtain ⟨u, run, cu, quietU, cpU, rxU, memU, sessU, traceU, linesU, txU, -, paramsU⟩ :=
      dataByteLandsAtTheCursor s d (ds ++ rest) c quiet hcp hrx first
    obtain ⟨t, run', ct, quietT, cpT, rxT, taken⟩ := ih cu quietU cpU rxU others
    refine ⟨t, ?_, ct, quietT, cpT, rxT, ?_⟩
    · rw [List.length_cons, show 16 * (ds.length + 1) = 16 + 16 * ds.length by omega, after_add run, run']
    · obtain ⟨rx, tx, mem, start, count, trace, lines, params⟩ := taken
      constructor
      case rx => rw [hrx, rxT]
      case tx => rw [tx, txU]
      case mem => rw [mem, memU, sessU]; rfl
      case start => rw [start, sessU]
      case count => rw [count, sessU, List.length_cons]; bv_omega
      case trace => rw [trace, traceU, paramsU, sessU, List.append_assoc]; rfl
      case lines => rw [lines, linesU]
      case params => rw [params, paramsU]

/-- The report of a session with no error (42_upload_protocol.md R193). -/
theorem resultOf_done {s : State} (noErr : s.err = .none) (live : s.sess.valid = true) :
    (resultOf s).status = 0 ∧ (resultOf s).kind = .none ∧ (resultOf s).bytes = s.sess.bytesWritten ∧
      (resultOf s).start = s.sess.startAddress := by
  simp [resultOf, sessionFailed, noErr, live]

/-- An upload in which nothing else happens: eight steps to Streaming, sixteen for each byte, seven to the report. -/
theorem upload_alone (s : State) (a : Addr) (image rest : List Byte) (c : Consistent s) (quiet : Quiet s)
    (hcp : s.cp = .idleWait) (data : ∀ b ∈ image, b ≠ 0x45)
    (hrx : s.rx = [0x55, a.extractLsb' 0 8, a.extractLsb' 8 8] ++ image ++ [0x45] ++ rest) :
    ∃ t, after (15 + 16 * image.length) s = .next t ∧ t.cp = .idleWait ∧ t.rx = rest ∧
      t.tx = s.tx ++ [0x41, 0x4B] ∧
      t.res.status = 0 ∧ t.res.kind = .none ∧ t.res.bytes = BitVec.ofNat 32 image.length ∧ t.res.start = a ∧
      t.trace = s.trace ++ [.tx 0x41] ++ beginTrain ++ imageTrain s.params.leActive a image ++ [.tx 0x4B] ++
        endTrain ++ [.result t.res] ∧
      t.mem = writeImage s.mem a image ∧ t.lines = { s.lines with bus := t.lines.bus } := by
  have atRest : (s.lines.trstN, s.lines.csN, s.lines.loeN) = (1, 1, 1) := by rw [c.sessionLines, hcp]; rfl
  have start := after_uploadStart (rest := image ++ ([0x45] ++ rest)) quiet.coreTurn quiet.txReady hcp
    (by simpa using hrx)
  obtain ⟨u, written, cu, quietU, cpU, rxU, taken⟩ := after_image image ([0x45] ++ rest) (after_consistent c start)
    ⟨quiet.coreTurn, quiet.txReady, quiet.noFault, quiet.notClosed⟩ rfl rfl data
  have ended := after_endMarker quietU.coreTurn quietU.txReady cpU (by rw [rxU]; rfl)
  have total : 15 + 16 * image.length = 8 + (16 * image.length + 7) := by omega
  obtain ⟨status, kind, bytes, startAddress⟩ := resultOf_done (s := { u with tEnd := stamp u.now })
    (cu.error.noErr (by simp [cpU]) (by simp [cpU])) (cu.flag.streaming cpU)
  have run := (congrArg (after · s) total).trans ((after_add start).trans ((after_add written).trans ended))
  refine ⟨_, run, rfl, congrArg List.tail rxU, ?_, status, kind,
    bytes.trans (taken.count.trans (BitVec.zero_add _)), startAddress.trans taken.start, ?_, taken.mem, ?_⟩
  · exact (congrArg (· ++ [0x4B]) taken.tx).trans (List.append_assoc ..)
  · exact congrArg (· ++ [.tx 0x4B] ++ endTrain ++ _) taken.trace
  · exact (congrArg (fun l : BusLines => { l with loeN := 1, csN := 1, trstN := 1 }) taken.lines).trans
      (congrArg (fun l : BusLines => { l with bus := u.lines.bus }) (sessionLines_atRest atRest))

/-! ### Where an image lands -/

theorem toNat_addr_succ (a : Addr) (i : Nat) : ((a + 1).toNat + i) % 65536 = (a.toNat + (i + 1)) % 65536 := by
  rw [BitVec.toNat_add]; simp; omega

/-- A cell that no byte of the image is written to stays (42_upload_protocol.md R202). -/
theorem read_writeImage_other (image : List Byte) (m : Memory) (a x : Addr)
    (other : ∀ i, i < image.length → x.toNat ≠ (a.toNat + i) % 65536) :
    Memory.read (writeImage m a image) x.toNat = Memory.read m x.toNat := by
  induction image generalizing m a with
  | nil => rfl
  | cons d ds ih =>
    have first : x.toNat ≠ a.toNat := by simpa [Nat.mod_eq_of_lt a.isLt] using other 0 (by simp)
    rw [writeImage, ih, read_write_other m d first]
    intro i hi
    rw [toNat_addr_succ]
    exact other (i + 1) (by simpa using hi)

/-- Settles O59: the first byte stays where it was written, for no later one of at most 65,535 wraps onto it; the
others by induction. -/
theorem imageLandsInOrder : Obligations.ImageLandsInOrder := by
  intro m a image short
  refine ⟨fun i hi => ?_, fun x other => read_writeImage_other image m a x other⟩
  induction image generalizing m a i with
  | nil => exact absurd hi (Nat.not_lt_zero i)
  | cons d ds ih =>
    simp only [List.length_cons] at short hi
    cases i with
    | zero =>
      rw [Nat.add_zero, Nat.mod_eq_of_lt a.isLt, writeImage, read_writeImage_other, read_write_same]; rfl
      intro i hi
      rw [toNat_addr_succ]
      have := a.isLt
      omega
    | succ i =>
      rw [← toNat_addr_succ, writeImage, ih _ _ (by omega) i (by omega)]; rfl

end Sys2Proof.Safety
end

section
/-! PROOF. An upload on its course (42_upload_protocol.md R207): whatever the schedule, each turn of the CORE keeps it
there, and only the report leaves it. -/

namespace Sys2Proof.Safety

open Sys2Proof.Machine

variable {j : Upload} {left : List Byte} {u t : State}

/-! ### The trains, event by event -/

theorem unwarned_eq_self {es : List OutEvent} (h : OutEvent.warn ∉ es) : unwarned es = es := by
  refine List.filter_eq_self.mpr fun e he => ?_
  simp only [bne_iff_ne, ne_eq]
  rintro rfl
  exact h he

@[simp] theorem unwarned_wPhaseEvents (p : WPhase) (s : State) : unwarned (wPhaseEvents p s) = wPhaseEvents p s :=
  unwarned_eq_self (by cases p <;> simp [wPhaseEvents, writeTrain, WPhase.code])

@[simp] theorem unwarned_sPhaseEvents (p : SPhase) : unwarned (sPhaseEvents p) = sPhaseEvents p :=
  unwarned_eq_self (by cases p <;> simp [sPhaseEvents, beginTrain, endTrain, SPhase.code])

/-- A phase of a write emits the next event of the train. -/
theorem take_writeTrain_succ (p : WPhase) (s : State) :
    (writeTrain s.params.leActive s.wr.addr s.wr.data).take (p.code.toNat + 1) =
      (writeTrain s.params.leActive s.wr.addr s.wr.data).take p.code.toNat ++ wPhaseEvents p s := List.take_add

/-! ### The course, by the place of the loop -/

theorem uploading_hdrWait (hc : u.cp = .hdrWait) : Uploading j left u ↔ u.err = .none ∧ u.params.leActive = j.on ∧
    (if u.hdrCnt = 0 then left = j.header ++ j.image ++ [0x45]
      else left = j.start.extractLsb' 8 8 :: j.image ++ [0x45] ∧ u.hdrLo = j.start.extractLsb' 0 8) ∧
    u.mem = j.mem ∧ unwarned u.trace = j.trace ++ [.tx 0x41] := by rw [Uploading, hc]

theorem uploading_beginRun (hc : u.cp = .beginRun) : Uploading j left u ↔ u.err = .none ∧ u.params.leActive = j.on ∧
    left = j.image ++ [0x45] ∧ u.mem = j.mem ∧ u.sess.startAddress = j.start ∧
    unwarned u.trace = j.trace ++ [.tx 0x41] ++ beginTrain.take u.sphase.code.toNat := by rw [Uploading, hc]

theorem uploading_strWait (hc : u.cp = .strWait) : Uploading j left u ↔ u.err = .none ∧ u.params.leActive = j.on ∧
    ∃ sent rest, j.image = sent ++ rest ∧ left = rest ++ [0x45] ∧ Written j sent u ∧
      unwarned u.trace = j.traceOf sent := by rw [Uploading, hc]

theorem uploading_write (hc : u.cp = .write) : Uploading j left u ↔ u.err = .none ∧ u.params.leActive = j.on ∧
    ∃ sent rest, j.image = sent ++ u.wr.data :: rest ∧ left = rest ++ [0x45] ∧ Written j sent u ∧
      unwarned u.trace = j.traceOf sent ++ (writeTrain j.on u.wr.addr u.wr.data).take u.wphase.code.toNat := by
  rw [Uploading, hc]

theorem uploading_endRun (hc : u.cp = .endRun) : Uploading j left u ↔ u.err = .none ∧ u.params.leActive = j.on ∧
    left = [] ∧ Written j j.image u ∧
    unwarned u.trace = j.traceOf j.image ++ [.tx 0x4B] ++ endTrain.take (u.sphase.code.toNat - 4) := by
  rw [Uploading, hc]

/-! ### What a turn of the CORE does to the upload -/

theorem Consistent.withoutPulses (c : Consistent u) : Consistent (clearPulses u) :=
  ⟨c.control, c.error, c.flag, c.sessionLines, c.strobes, c.write, c.cursor, c.outputEnable⟩

/-- The upload is on its course after the turn too: the CORE took nothing of the frame, or its next byte. -/
def Advances (j : Upload) (left : List Byte) (u t : State) : Prop :=
  ∃ left', Uploading j left' t ∧ (left' = left ∨ ∃ b, left = b :: left' ∧ u.rx.head? = some b)

theorem Advances.stays (h : Uploading j left t) : Advances j left u t := ⟨left, h, .inl rfl⟩

theorem Advances.takes {b : Byte} {left' : List Byte} (frame : left = b :: left')
    (pending : pendingEvent u = some (.byte b)) (h : Uploading j left' t) : Advances j left u t :=
  ⟨left', h, .inr ⟨b, frame, pendingEvent_byte.mp pending⟩⟩

/-- The course looks at no input of the CORE's turn. -/
theorem Uploading.turn {s : State} (course : Uploading j left s) (turn : CoreTurn s u) : Uploading j left u := by
  obtain ⟨_, _, _, _, rfl⟩ := coreTurn_frame turn
  exact course

/-- What the environment of R207 says of the event taken. -/
def EventAllowed (left : List Byte) (u : State) : Event → Prop
  | .byte b => left.head? = some b
  | .timeout => u.cp ≠ .hdrWait
  | .closed => u.cp ≠ .strWait

/-- The byte taken is the next of the frame. -/
theorem EventAllowed.next {b d : Byte} {ds : List Byte} (allowed : EventAllowed left u (.byte b))
    (frame : left = d :: ds) : d = b := by
  subst frame
  exact Option.some.inj allowed

/-- The cursor in a write is past the bytes written (42_upload_protocol.md R202). -/
theorem Written.cursor {sent : List Byte} (w : Written j sent u) (c : Consistent u) (live : u.sess.valid = true) :
    u.sess.cursor = j.start + BitVec.ofNat 16 sent.length := by
  obtain ⟨start, count, -⟩ := w
  rw [c.cursor live, start, count]
  congr 1
  exact BitVec.eq_of_toNat_eq (by simp)

/-- The last phase of a write stores the requested byte at the cursor (20_memory.md R69, 42_upload_protocol.md R202). -/
theorem wPhaseStep_weHigh_mem {s : State} (c : Consistent s) (hcp : s.cp = .write) (last : s.wphase = .weHigh) :
    (wPhaseStep .weHigh s).mem = Memory.write s.mem s.sess.cursor.toNat s.wr.data := by
  obtain ⟨addr, -⟩ := c.write.1 hcp
  obtain ⟨-, -, ah, al, dl, held⟩ := c.write
  obtain ⟨-, -, -, strobe⟩ := c.strobes
  have lines := c.sessionLines
  simp only [SessionLinesRight, hcp, sessionLevels, Prod.mk.injEq] at lines
  simp only [last, latchesLoaded] at ah al dl
  have latched : latchAddress s.latches = s.sess.cursor := by
    rw [← addr, latchAddress, ah (by decide), al (by decide)]
    exact headerAddress_halves s.wr.addr
  change memAfter .weN 1 s = _
  rw [memAfter, if_pos ⟨rfl, by simpa [last] using strobe, held (.inr last), lines.2.1, lines.2.2⟩, latched,
    dl (by decide)]

/-- One byte more is written (42_upload_protocol.md R187). -/
theorem Written.snoc {sent : List Byte} {b : Byte} (w : Written j sent u)
    (start : t.sess.startAddress = u.sess.startAddress)
    (count : t.sess.bytesWritten = u.sess.bytesWritten + 1)
    (mem : t.mem = Memory.write u.mem (j.start + BitVec.ofNat 16 sent.length).toNat b) : Written j (sent ++ [b]) t := by
  obtain ⟨start', count', mem'⟩ := w
  refine ⟨start.trans start', ?_, ?_⟩
  · rw [count, count', List.length_append, BitVec.ofNat_add]; rfl
  · rw [mem, mem', writeImage_append]

theorem traceOf_snoc (j : Upload) (sent : List Byte) (b : Byte) :
    j.traceOf (sent ++ [b]) = j.traceOf sent ++ writeTrain j.on (j.start + BitVec.ofNat 16 sent.length) b := by
  rw [Upload.traceOf, Upload.traceOf, imageTrain_append, List.append_assoc _ (imageTrain ..)]

/-! ### The course through each place of the loop -/

/-- The first byte of the frame is the start marker, which Idle takes. -/
theorem Uploading.started {b : Byte} (course : Uploading j left u) (hcp : u.cp = .idleWait)
    (pending : pendingEvent u = some (.byte b)) (marker : b = startMarker) :
    Advances j left u { takeEvent (.byte b) (clearPulses u) with cp := .ackTx } := by
  obtain ⟨noErr, level, place⟩ := course
  rw [hcp] at place
  obtain ⟨frame, mem, trace⟩ := place
  subst marker
  exact .takes frame pending ⟨noErr, level, rfl, mem, trace⟩

/-- No byte but the start marker comes in Idle. -/
theorem Uploading.idle_marker {b : Byte} (course : Uploading j left u) (hcp : u.cp = .idleWait)
    (allowed : EventAllowed left u (.byte b)) : b = startMarker := by
  obtain ⟨-, -, place⟩ := course
  rw [hcp] at place
  exact (allowed.next place.1).symm

/-- The acknowledge leads to the header. -/
theorem Uploading.acknowledged (course : Uploading j left u) (hcp : u.cp = .ackTx) :
    Uploading j left (loadTimer { sendTx ackByte (clearPulses u) with hdrCnt := 0, cp := .hdrWait }) := by
  obtain ⟨noErr, level, place⟩ := course
  rw [hcp] at place
  obtain ⟨frame, mem, trace⟩ := place
  refine ⟨noErr, level, frame, mem, ?_⟩
  change unwarned (u.trace ++ [.tx 0x41]) = _
  rw [unwarned_append, trace, unwarned_tx]

/-- The first byte of the header is the address's low byte. -/
theorem Uploading.lowTaken {b : Byte} (course : Uploading j left u) (hcp : u.cp = .hdrWait) (first : u.hdrCnt = 0)
    (pending : pendingEvent u = some (.byte b)) (allowed : EventAllowed left u (.byte b)) :
    Advances j left u { takeEvent (.byte b) (clearPulses u) with hdrLo := b, hdrCnt := 1 } := by
  obtain ⟨noErr, level, frame, mem, trace⟩ := (uploading_hdrWait hcp).mp course
  rw [if_pos first] at frame
  obtain rfl := allowed.next frame
  exact .takes frame pending ((uploading_hdrWait (by exact hcp)).mpr
    ⟨noErr, level, (if_neg (show (1 : BitVec 1) ≠ 0 by decide)).mpr ⟨rfl, rfl⟩, mem, trace⟩)

/-- The second byte of the header completes the start address. -/
theorem Uploading.highTaken {b : Byte} (course : Uploading j left u) (hcp : u.cp = .hdrWait) (second : u.hdrCnt ≠ 0)
    (pending : pendingEvent u = some (.byte b)) (allowed : EventAllowed left u (.byte b)) :
    Advances j left u { takeEvent (.byte b) (clearPulses u) with
      sess := { u.sess with startAddress := headerAddress b u.hdrLo }
      hdrCnt := 0
      sphase := .bReset
      cp := .beginRun } := by
  obtain ⟨noErr, level, frame, mem, trace⟩ := (uploading_hdrWait hcp).mp course
  rw [if_neg second] at frame
  obtain ⟨frame, lo⟩ := frame
  obtain rfl := allowed.next frame
  refine .takes frame pending ⟨noErr, level, rfl, mem, ?_, trace.trans (List.append_nil _).symm⟩
  change headerAddress _ u.hdrLo = _
  rw [lo, headerAddress_halves]

/-- A timeout in Streaming adds a warning, which the course does not count. -/
theorem Uploading.warned (course : Uploading j left u) (hcp : u.cp = .strWait) :
    Uploading j left (loadTimer (emit .warn { takeEvent .timeout (clearPulses u) with warnTimeout := true })) := by
  obtain ⟨noErr, level, sent, rest, image, frame, written, trace⟩ := (uploading_strWait hcp).mp course
  refine (uploading_strWait (by exact hcp)).mpr ⟨noErr, level, sent, rest, image, frame, written, ?_⟩
  change unwarned (u.trace ++ [.warn]) = _
  rw [unwarned_append, trace, unwarned_warn, List.append_nil]

/-- The end marker comes when the whole image is written, for no byte of the image is one. -/
theorem Uploading.ended {b : Byte} (course : Uploading j left u) (hcp : u.cp = .strWait) (marker : b = endMarker)
    (data : ∀ d ∈ j.image, d ≠ 0x45) (pending : pendingEvent u = some (.byte b))
    (allowed : EventAllowed left u (.byte b)) :
    Advances j left u { takeEvent (.byte b) (clearPulses u) with cp := .confirmTx } := by
  obtain ⟨noErr, level, sent, rest, image, frame, written, trace⟩ := (uploading_strWait hcp).mp course
  cases rest with
  | nil =>
    rw [List.append_nil] at image
    subst marker image
    exact .takes frame pending ⟨noErr, level, rfl, written, trace⟩
  | cons d ds =>
    obtain rfl := allowed.next frame
    exact absurd marker (data d (by simp [image]))

/-- Any other byte is the next of the image, and its write begins. -/
theorem Uploading.dataTaken {b : Byte} (course : Uploading j left u) (hcp : u.cp = .strWait) (other : b ≠ endMarker)
    (pending : pendingEvent u = some (.byte b)) (allowed : EventAllowed left u (.byte b)) :
    Advances j left u (writeRequested b u) := by
  obtain ⟨noErr, level, sent, rest, image, frame, written, trace⟩ := (uploading_strWait hcp).mp course
  cases rest with
  | nil => exact absurd (allowed.next frame).symm other
  | cons d ds =>
    obtain rfl := allowed.next frame
    exact .takes frame pending ⟨noErr, level, sent, ds, image, rfl, written, trace.trans (List.append_nil _).symm⟩

/-- The confirm leads to the clean-up. -/
theorem Uploading.confirmed (course : Uploading j left u) (hcp : u.cp = .confirmTx) :
    Uploading j left (enterDone (sendTx confirmByte (clearPulses u))) := by
  obtain ⟨noErr, level, place⟩ := course
  rw [hcp] at place
  obtain ⟨frame, written, trace⟩ := place
  refine ⟨noErr, level, frame, written, ?_⟩
  change unwarned (u.trace ++ [.tx 0x4B]) = j.traceOf j.image ++ [.tx 0x4B] ++ []
  rw [unwarned_append, trace, unwarned_tx, List.append_nil]

/-- A phase of a write before the last keeps the upload on its course. -/
theorem Uploading.writePhase (course : Uploading j left u) (hcp : u.cp = .write) (busy : u.wphase ≠ .wIdle)
    (last : u.wphase ≠ .weHigh) : Uploading j left (wPhaseStep u.wphase (clearPulses u)) := by
  obtain ⟨noErr, level, sent, rest, image, frame, written, trace⟩ := (uploading_write hcp).mp course
  refine (uploading_write (by simpa using hcp)).mpr ⟨by simpa using noErr, by simpa using level, sent, rest,
    by simpa using image, frame, ⟨by simpa using written.1, by simpa using written.2.1, ?_⟩, ?_⟩
  · rw [wPhaseStep_mem last]; exact written.2.2
  · have next : (nextWPhase u.wphase).code.toNat = u.wphase.code.toNat + 1 := by
      cases hp : u.wphase <;> simp_all [nextWPhase, WPhase.code]
    have train := take_writeTrain_succ u.wphase (clearPulses u)
    simp only [clearPulses_params, clearPulses_wr, level] at train
    rw [wPhaseStep_trace, unwarned_append, unwarned_wPhaseEvents, wPhaseStep_wphase, next, wPhaseStep_wr]
    simp only [clearPulses_trace, clearPulses_wr, trace, train, List.append_assoc]

/-- The last phase of a write counts one byte of the image more. -/
theorem Uploading.writeAccepted (course : Uploading j left u) (c : Consistent u) (hcp : u.cp = .write)
    (last : u.wphase = .weHigh) :
    Uploading j left (acceptWrite { wPhaseStep .weHigh (clearPulses u) with wrRet := .ok }) := by
  obtain ⟨noErr, level, sent, rest, image, frame, written, trace⟩ := (uploading_write hcp).mp course
  have cursor := written.cursor c (by rw [c.flag, hcp]; rfl)
  have addr : u.wr.addr = j.start + BitVec.ofNat 16 sent.length := (c.write.1 hcp).1.trans cursor
  refine (uploading_strWait rfl).mpr ⟨noErr, level, sent ++ [u.wr.data], rest, by simp [image], frame,
    written.snoc rfl rfl ?_, ?_⟩
  · rw [← cursor]
    exact wPhaseStep_weHigh_mem (s := clearPulses u) c.withoutPulses hcp last
  · change unwarned (u.trace ++ [.set .weN 1]) = _
    rw [unwarned_append, trace, last, traceOf_snoc, addr, List.append_assoc]
    rfl

/-- A phase of BEGIN_SESSION before the last emits the next event of its train. -/
theorem Uploading.beginPhase (course : Uploading j left u) (hcp : u.cp = .beginRun)
    (phase : u.sphase = .bReset ∨ u.sphase = .bSettle ∨ u.sphase = .bCs) :
    Uploading j left (sPhaseStep u.sphase (clearPulses u)) := by
  obtain ⟨noErr, level, frame, mem, start, trace⟩ := (uploading_beginRun hcp).mp course
  refine (uploading_beginRun (by simpa using hcp)).mpr ⟨by simpa using noErr, by simpa using level, frame,
    by simpa using mem, by simpa using start, ?_⟩
  rw [sPhaseStep_trace, unwarned_append, unwarned_sPhaseEvents, sPhaseStep_sphase]
  simp only [clearPulses_trace, trace, List.append_assoc]
  rcases phase with hp | hp | hp <;> rw [hp] <;> rfl

/-- The last phase of BEGIN_SESSION opens the session with nothing written. -/
theorem Uploading.opened (course : Uploading j left u) (hcp : u.cp = .beginRun) (phase : u.sphase = .bLoe) :
    Uploading j left (openSession (sPhaseStep .bLoe (clearPulses u))) := by
  obtain ⟨noErr, level, frame, mem, start, trace⟩ := (uploading_beginRun hcp).mp course
  refine (uploading_strWait rfl).mpr ⟨noErr, level, [], j.image, rfl, frame, ⟨start, rfl, mem⟩, ?_⟩
  change unwarned (u.trace ++ [.set .loeN 0]) = _
  rw [unwarned_append, trace, phase, Upload.traceOf, imageTrain, List.append_assoc, List.append_nil]
  rfl

/-- A phase of END_SESSION before the last emits the next event of its train. -/
theorem Uploading.endPhase (course : Uploading j left u) (hcp : u.cp = .endRun)
    (phase : u.sphase = .eLoe ∨ u.sphase = .eCs ∨ u.sphase = .eReset) :
    Uploading j left (sPhaseStep u.sphase (clearPulses u)) := by
  obtain ⟨noErr, level, frame, ⟨start, count, mem⟩, trace⟩ := (uploading_endRun hcp).mp course
  refine (uploading_endRun (by simpa using hcp)).mpr ⟨by simpa using noErr, by simpa using level, frame,
    ⟨by simpa using start, by simpa using count, by simpa using mem⟩, ?_⟩
  rw [sPhaseStep_trace, unwarned_append, unwarned_sPhaseEvents, sPhaseStep_sphase]
  simp only [clearPulses_trace, trace, List.append_assoc]
  rcases phase with hp | hp | hp <;> rw [hp] <;> rfl

/-- The last phase of END_SESSION completes its train. -/
theorem Uploading.endLast (course : Uploading j left u) (hcp : u.cp = .endRun) (phase : u.sphase = .eSettle) :
    Uploading j left { sPhaseStep .eSettle (clearPulses u) with sphase := .sIdle, cp := .report } := by
  obtain ⟨noErr, level, frame, written, trace⟩ := (uploading_endRun hcp).mp course
  refine ⟨noErr, level, frame, written, ?_⟩
  change unwarned (u.trace ++ [.wait .settle]) = _
  rw [unwarned_append, trace, phase, List.append_assoc]
  rfl

/-- At the report every line but the bus is at rest. -/
theorem Consistent.lines_atReport (c : Consistent u) (hcp : u.cp = .report) :
    u.lines = { BusLines.atReset u.params.leActive with bus := u.lines.bus } := by
  obtain ⟨control, -, -, lines, strobes, -, -, outputEnable⟩ := c
  obtain ⟨leAh, leAl, leD, weN⟩ := strobes.atRest (by simp_all [ControlConsistent])
  simp only [SessionLinesRight, hcp, sessionLevels, Prod.mk.injEq] at lines
  obtain ⟨trst, cs, loe⟩ := lines
  simp only [BusLines.atReset]
  cases h : u.lines
  simp_all [releaseLevel]

/-- The report of an upload on its course is that of the finished upload (42_upload_protocol.md R207). -/
theorem Uploading.reported (course : Uploading j left u) (c : Consistent u) (hcp : u.cp = .report) :
    Uploaded j (returnToIdle (clearPulses u)) := by
  obtain ⟨noErr, level, place⟩ := course
  rw [hcp] at place
  obtain ⟨-, ⟨start, count, mem⟩, trace⟩ := place
  have live : u.sess.valid = true := by rw [c.flag, hcp, noErr]; rfl
  obtain ⟨status, kind, bytes, startAddress⟩ := resultOf_done noErr live
  refine ⟨rfl, status, kind, bytes.trans count, startAddress.trans start, mem, ?_, ?_⟩
  · change unwarned (u.trace ++ _) = _
    rw [unwarned_append, trace, unwarned_result]; rfl
  · exact level ▸ c.lines_atReport hcp

/-- On the course, in the environment of R207, a turn of the CORE keeps the upload there, or reports it. -/
theorem coreResult_advances (h : CoreResult u t) (c : Consistent u) (course : Uploading j left u)
    (noFault : u.ports.busFault = false) (data : ∀ b ∈ j.image, b ≠ 0x45)
    (events : ∀ e, u.cp.isWait = true → pendingEvent u = some e → EventAllowed left u e) :
    Advances j left u t ∨ (u.cp = .report ∧ Uploaded j t) := by
  cases h
  case still ht => exact .inl (.stays (ht ▸ course))
  case idleStart hc pending marker ht => exact .inl (ht ▸ course.started hc pending marker)
  case idleByte hc pending other ht => exact absurd (course.idle_marker hc (events _ (by rw [hc]; rfl) pending)) other
  case idleTmo ht => exact .inl (.stays (ht ▸ course))
  case closed ht => exact .inl (.stays (ht ▸ course))
  case stall ht => exact .inl (.stays (ht ▸ course))
  case ack hc ht => exact .inl (.stays (ht ▸ course.acknowledged hc))
  case hdrLo hc pending first ht =>
    exact .inl (ht ▸ course.lowTaken hc first pending (events _ (by rw [hc]; rfl) pending))
  case hdrHi hc pending second ht =>
    exact .inl (ht ▸ course.highTaken hc second pending (events _ (by rw [hc]; rfl) pending))
  case hdrTmo hc pending ht => exact absurd hc (events _ (by rw [hc]; rfl) pending)
  case sessionBegin hc phase ht => exact .inl (.stays (ht ▸ course.beginPhase hc phase))
  case sessionOpen hc phase ht => exact .inl (.stays (ht ▸ course.opened hc phase))
  case strTmo hc _ ht => exact .inl (.stays (ht ▸ course.warned hc))
  case strClosed hc pending ht => exact absurd hc (events _ (by rw [hc]; rfl) pending)
  case strEnd hc pending marker ht =>
    exact .inl (ht ▸ course.ended hc marker data pending (events _ (by rw [hc]; rfl) pending))
  case strData hc pending other ht =>
    exact .inl (ht ▸ course.dataTaken hc other pending (events _ (by rw [hc]; rfl) pending))
  case wr hc busy last ht => exact .inl (.stays (ht ▸ course.writePhase hc busy last))
  case wrOk hc last _ ht => exact .inl (.stays (ht ▸ course.writeAccepted c hc last))
  case wrErr fault ht => simp [noFault] at fault
  case confirm hc ht => exact .inl (.stays (ht ▸ course.confirmed hc))
  case finEnd hc phase ht => exact .inl (.stays (ht ▸ course.endPhase hc phase))
  case finEndLast hc phase ht => exact .inl (.stays (ht ▸ course.endLast hc phase))
  case report hc ht => exact .inr ⟨hc, ht ▸ course.reported c hc⟩

/-- Settles O58: the run in which nothing else happens, and, for every schedule, the turn of the CORE; no other act but
the reset reaches the upload. -/
theorem uploadWritesTheImage : Obligations.UploadWritesTheImage := by
  refine ⟨upload_alone, fun j left s t data c course undisturbed h => ?_⟩
  obtain ⟨noReset, turns⟩ := undisturbed
  rcases step_noReset h noReset with ⟨u, turn, result⟩ | ⟨_, _, _, _, rfl⟩
  · obtain ⟨noFault, events⟩ := turns u turn
    have advanced := coreResult_advances result (c.turn turn) (course.turn turn) noFault data
      fun e wait pending => by cases e <;> exact events _ wait pending
    obtain ⟨_, _, _, _, rfl⟩ := coreTurn_frame turn
    exact advanced
  · exact .inl ⟨left, course, .inl rfl⟩

end Sys2Proof.Safety
end
